-- ==== Sys2Proof/Word.lean ====
section
/-! DEFINITION. Bytes and nibbles of the link, and the plain tables (vectors indexed by `Fin`) the part's
records are kept in. -/

namespace Sys2Proof

/-- A byte of a frame (01: R2). -/
abbrev Byte := BitVec 8

/-- A nibble, what one DATA symbol carries (01: R1). -/
abbrev Nibble := BitVec 4

/-- A table of `n` like things, written by a function of the index. -/
def tab {α : Type} {n : Nat} (f : Fin n → α) : Vector α n :=
  ⟨⟨List.ofFn f⟩, by simp⟩

/-- A table with one place replaced. -/
def put {α : Type} {n : Nat} (v : Vector α n) (i : Fin n) (x : α) : Vector α n :=
  v.set i.val x i.isLt

@[simp] theorem tab_get {α : Type} {n : Nat} (f : Fin n → α) (i : Fin n) : (tab f).get i = f i := by
  simp only [tab, Vector.get]
  simp
  rfl

@[simp] theorem put_get_same {α : Type} {n : Nat} (v : Vector α n) (i : Fin n) (x : α) :
    (put v i x).get i = x := by
  show (v.set i.val x i.isLt)[i.val] = x
  simp

theorem put_get_ne {α : Type} {n : Nat} (v : Vector α n) {i j : Fin n} (x : α) (h : i ≠ j) :
    (put v i x).get j = v.get j := by
  have h' : i.val ≠ j.val := fun e => h (Fin.ext e)
  show (v.set i.val x i.isLt)[j.val] = v[j.val]
  simp [h']

theorem put_get {α : Type} {n : Nat} (v : Vector α n) (i j : Fin n) (x : α) :
    (put v i x).get j = if i = j then x else v.get j := by
  by_cases h : i = j
  · subst h; simp
  · simp [h, put_get_ne]

/-- Two tables with the same entries are the same table. -/
theorem vec_ext {α : Type} {n : Nat} {v w : Vector α n} (h : ∀ i : Fin n, v.get i = w.get i) : v = w := by
  apply Vector.ext
  intro i hi
  exact h ⟨i, hi⟩

end Sys2Proof
end

