-- ==== Sys2Proof/Syntax.lean ====
section
/-! DEFINITION. The commands the part takes: one constructor for each row of spec/opcode_table.json. The table
gives the rows no operands; the operands here are what the row's rule needs from outside the part (entry 8). -/

namespace Sys2Proof

/-- The two link ports (00: Table 1). -/
inductive Port where
  | front
  | rear
  deriving DecidableEq, Repr

/-- The port a frame did not arrive on (02: R20). -/
def Port.other : Port → Port
  | .front => .rear
  | .rear => .front

/-- The three ignition lines (09: R149). -/
inductive IgnLine where
  | acc
  | run
  | start
  deriving DecidableEq, Repr

/-- The commands, in the order of the table. -/
inductive Instr where
  /-- R5: a START symbol received on a port. -/
  | startSymbol (port : Port)
  /-- R5: a DATA symbol with its nibble. -/
  | dataSymbol (port : Port) (nibble : Nibble)
  /-- R6: an END symbol. -/
  | endSymbol (port : Port)
  /-- R5: an ABORT symbol, or a line pattern that is none of the five symbols (R1). -/
  | abortSymbol (port : Port)
  /-- R5: a FILL symbol. -/
  | fillSymbol (port : Port)
  /-- R10: the 20 ms quiet timer of a port expires. -/
  | portQuiet (port : Port)
  /-- R161: a symbol sensed on a port in QUIET. -/
  | lineActivity (port : Port)
  /-- R43: the transmitter of a port becomes free and its arbiter chooses. -/
  | transmitStart (port : Port)
  /-- R16: the transmitter of a port finishes its frame. -/
  | transmitEnd (port : Port)
  /-- R39: the oldest entry of the relay queue fed from `arrival` has waited 500 ms. -/
  | relayAgeOut (arrival : Port)
  /-- R28: a 10 ms step of the node ages. -/
  | nodeAgeStep
  /-- R27: the quiet time of a DUPLICATE entry reaches 10 s. -/
  | duplicateClear (node : Nat)
  /-- R31: the own-number timer expires. -/
  | ownNumberTimerExpiry
  /-- R52: dispatch of a SWITCH_STATE frame. -/
  | switchState
  /-- R137: dispatch of a SENDER_REPORT frame. -/
  | senderReport
  /-- R77: dispatch of a LAMP_STATUS frame. -/
  | lampStatus
  /-- R34: dispatch of a frame the part does not consume. -/
  | unknownKind
  /-- R167 -/
  | read
  /-- R167 -/
  | select
  /-- R167 -/
  | readNext
  /-- R168 -/
  | write
  /-- R168 -/
  | writeNext
  /-- R170 -/
  | hold
  /-- R171 -/
  | release
  /-- R172 -/
  | commit
  /-- R173 -/
  | sleep
  /-- R174 -/
  | assign
  /-- R175 -/
  | reframe
  /-- R177 -/
  | clear
  /-- R175 -/
  | clearCounters
  /-- R172: the write and read-back of a COMMIT finish; `equal`: the read-back equals the copy. -/
  | commitComplete (equal : Bool)
  /-- R67: a step of the 100 ms sampling clock, with the currents the drivers deliver, in 0.1 A. -/
  | sampleClock (lamps : Vector Nat 12) (fan : Nat)
  /-- R67: 100 ms after an ON_PHASE edge, with the currents the lamp drivers deliver, in 0.1 A. -/
  | flashSample (lamps : Vector Nat 12)
  /-- R69: a lamp's current crosses its overload level; `milliamps` is the current it comes to. -/
  | overloadLevelCrossing (lamp : Fin 12) (milliamps : Nat)
  /-- R69: a lamp's current has stayed above the level for 50 ms. -/
  | overload (lamp : Fin 12)
  /-- R71: a local lamp driver trips on a short. -/
  | shortTrip (lamp : Fin 12)
  /-- R70: the retry timer of a channel expires. -/
  | retryTimerExpiry (channel : Fin 25)
  /-- R76: the refresh timer of a lamp-node record expires. -/
  | refreshTimerExpiry (record : Fin 2)
  /-- R109: the phase timer expires in OFF_PHASE. -/
  | onPhaseEdge
  /-- R110: the phase timer expires in ON_PHASE. -/
  | offPhaseEdge
  /-- R123: the fan's ramp timer expires. -/
  | rampStep
  /-- R126: the sample that brings the fan's stall count to 21, in 0.1 A. -/
  | stall (current : Nat)
  /-- R127: the stall wait timer expires. -/
  | stallWaitExpiry
  /-- R128: the fan current crosses its overload level; `milliamps` is the current it comes to. -/
  | fanOverloadLevelCrossing (milliamps : Nat)
  /-- R128: the fan current has stayed above the level for 50 ms. -/
  | fanOverload
  /-- R141: a 100 ms gauge tick. -/
  | gaugeTick
  /-- R145: the 15th park-ramp tick of a gauge. -/
  | parkRampEnd (gauge : Fin 4)
  /-- R149: the raw level of an ignition line. -/
  | ignitionLineChange (line : IgnLine) (high : Bool)
  /-- R149: the debounce timer of a line expires. -/
  | ignitionDebounceExpiry (line : IgnLine)
  /-- R152: a 10 ms supply sample, in 0.01 V. -/
  | supplySample (centivolts : Nat)
  /-- R179: the load stage of the power-on sequence. -/
  | nvLoad
  /-- R153: the start stage of the power-on sequence. -/
  | powerOnStart
  /-- R156: the settling interval expires. -/
  | settlingExpiry
  /-- R157: the idle interval expires. -/
  | idleExpiry
  /-- R159: deferral finds every condition of entry holding. -/
  | dormantEntry
  /-- R161: the 60 s quiet timer expires. -/
  | quietEntry
  /-- R164: dispatch of an MG_REQUEST that is too short or names no op. -/
  | unknownOp
  deriving DecidableEq, Repr

end Sys2Proof
end

