-- ==== Sys2Proof/Decode.lean ====
section
/-! DEFINITION. No row of the opcode table gives bits: the part takes steps, not words, so no word spells a
command (entry 4). -/

namespace Sys2Proof

/-- The command a word spells by the table's bits: none, since no row gives bits. -/
def decodeTableWord (_nbits _w : Nat) : Option Instr := none

end Sys2Proof
end

