-- ==== Sys2Proof/Config.lean ====
section
/-! DEFINITION. What is configured: the entries of the writable tables (11: Table 7), the fixed figures of the
part, and the free values, which the manual leaves open and nothing in Lean can evaluate. -/

namespace Sys2Proof

/-! ### Free values -/

/-- R142 rounds the THERMAL duty "to the nearest 0.1 %" and does not say where a half goes: up or not, for a
drive and a supply (entry 13). -/
opaque Config.thermalHalfUp : Nat → Nat → Bool

/-- R142 divides by the filtered supply and states no duty at 0.00 V (entry 13). -/
opaque Config.thermalDutyNoSupply : Nat → Nat

/-- R141 gives the supply reading "in 0.02 V units" and does not say where an odd 0.01 V goes (entry 13). -/
opaque Config.supplyReadingUp : Nat → Bool

/-- Times shown in coarser units than they are kept in (0.1 s of R25, s of R154): whether a part of a unit
shows as a whole one is not stated (entry 12). -/
opaque Config.partUnitShowsUp : Nat → Bool

/-! ### Figures fixed in the part -/

/-- IDENT vendor code (11: Table 8). -/
def Config.vendorCode : Nat := 0x0B17
/-- IDENT part code. -/
def Config.partCode : Nat := 0x0C28
/-- IDENT revision. -/
def Config.revision : Nat := 0x01

/-! ### Values of table fields -/

/-- Check mode of a port (01: R13). -/
inductive CheckMode where
  | check16
  | sum8
  deriving DecidableEq, Repr

/-- Check lock of a port (01: R13). -/
inductive CheckLock where
  | auto
  | fixed16
  | fixed8
  deriving DecidableEq, Repr

/-- Relay mode of a direction (02: R35). -/
inductive RelayMode where
  | store
  | cut
  deriving DecidableEq, Repr

/-- Role of a node; in a NODE_PINS entry `none` is LEARN (02: R25, R30). -/
inductive Role where
  | none
  | switchReader
  | sender
  | lampNode
  | service
  | other
  deriving DecidableEq, Repr

/-- Class of a channel and of its claim (04: Table 2). -/
inductive Class where
  | comfort
  | safety
  | gauge
  deriving DecidableEq, Repr

/-- How term A compares (06: Table 1). -/
inductive Compare where
  | eq
  | ne
  | ge
  deriving DecidableEq, Repr

/-- The action of a lamp rule (06: Table 1). -/
inductive Action where
  | steady
  | flash
  | telltale
  | dim
  deriving DecidableEq, Repr

/-- Stale behaviour of a lamp rule (06: R100). -/
inductive RuleStale where
  | hold
  | forceOn
  | forceOff
  deriving DecidableEq, Repr

/-- Permission of the fan (07: R120). -/
inductive FanPermission where
  | run
  | accRun
  deriving DecidableEq, Repr

/-- Stale behaviour of the fan (07: R120). -/
inductive FanStale where
  | hold
  | off
  deriving DecidableEq, Repr

/-- Type of a gauge (08: Table 1). -/
inductive GaugeType where
  | thermal
  | coil
  deriving DecidableEq, Repr

/-- Source of a gauge's readings (08: Table 1). -/
inductive GaugeSource where
  | sender
  | supply
  deriving DecidableEq, Repr

/-- Lost and open behaviour of a gauge (08: Table 1). -/
inductive GaugeBehaviour where
  | park
  | hold
  deriving DecidableEq, Repr

/-! ### Entries of the writable tables -/

/-- LINK (10: R169); the node number field is the working node number, held by the management unit. -/
structure LinkCfg where
  service : Nat
  noticeMask : BitVec 16
  relayFront : RelayMode
  relayRear : RelayMode
  lockFront : CheckLock
  lockRear : CheckLock
  deriving DecidableEq, Repr

/-- NODE_PINS entry (02: R30); node 0 marks it unused. -/
structure PinCfg where
  node : Nat
  role : Role
  expected : Option Port
  deriving DecidableEq, Repr

/-- SWITCH_MAP entry (03: Table 1); source 0 marks it unused. -/
structure MapCfg where
  source : Nat
  slot : Nat
  input : Fin 32
  debounce : Nat
  limit : Nat
  deriving DecidableEq, Repr

/-- CHANNELS entry (04: Table 2) of a lamp-type channel; the entries of channels 12-16 hold nothing of their
own. Nominal current in 0.1 A. -/
structure ChanCfg where
  cls : Class
  nominal : Nat
  node : Nat
  output : Nat
  deriving DecidableEq, Repr

/-- LAMP_RULES entry (06: Table 1). -/
structure RuleCfg where
  enabled : Bool
  inputA : Fin 32
  compare : Compare
  valueA : Nat
  inputB : Option (Fin 32)
  valueB : Nat
  mask : BitVec 4
  target : Fin 25
  action : Action
  priority : Nat
  stale : RuleStale
  deriving DecidableEq, Repr

/-- FAN entry (07: Table 1); duties and step in %, currents in 0.1 A. -/
structure FanCfg where
  input : Fin 32
  duty1 : Nat
  duty2 : Nat
  duty3 : Nat
  rampStep : Nat
  grain : Nat
  nominal : Nat
  stallThreshold : Nat
  permission : FanPermission
  stale : FanStale
  deriving DecidableEq, Repr

/-- GAUGES entry (08: Table 1). -/
structure GaugeCfg where
  type : GaugeType
  source : GaugeSource
  node : Nat
  slot : Nat
  curve : Fin 4
  damping : Nat
  parkDrive : Nat
  lost : GaugeBehaviour
  open_ : GaugeBehaviour
  nominal : Nat
  deriving DecidableEq, Repr

/-- CURVES entry (08: R132). -/
structure CurvePoint where
  reading : Nat
  drive : Nat
  deriving DecidableEq, Repr

/-- POWER entry (05: Table 1; 09: R152, R156, R157); currents in 0.1 A, idle in s, settling as its code 0-3,
threshold in 0.01 V. -/
structure PowerCfg where
  capacity : Nat
  runChg : Nat
  runDis : Nat
  acc : Nat
  crank : Nat
  parked : Nat
  idle : Nat
  settling : Fin 4
  threshold : Nat
  deriving DecidableEq, Repr

/-- The writable tables (10: Table 3). -/
structure Tables where
  link : LinkCfg
  pins : Vector PinCfg 8
  adopt : Vector Nat 4
  switchMap : Vector MapCfg 32
  channels : Vector ChanCfg 25
  rules : Vector RuleCfg 32
  fan : FanCfg
  gauges : Vector GaugeCfg 4
  curves : Vector CurvePoint 32
  power : PowerCfg
  /-- LAMP_SETUP: the dimmer input (06: R99). -/
  dimmer : Option (Fin 32)
  deriving DecidableEq, Repr

end Sys2Proof
end

