-- ==== Sys2Proof/Machine/Defaults.lean ====
section
/-! DEFINITION. The built-in defaults of the tables (10: Table 5 of R179), loaded when the non-volatile store is
not VALID. -/

namespace Sys2Proof.Machine

/-- LINK (R179): service node 0, empty mask, both relay modes from the CUT strap, both locks AUTO. -/
def defaultLink (cut : Bool) : LinkCfg :=
  let m := if cut then RelayMode.cut else RelayMode.store
  { service := 0, noticeMask := 0, relayFront := m, relayRear := m, lockFront := .auto, lockRear := .auto }

/-- An unused SWITCH_MAP entry. R58 gives the default as unused and no figure for the other fields: the lowest
figures in range stand here (entry 20). -/
def unusedMap : MapCfg := { source := 0, slot := 0, input := 0, debounce := 1, limit := 1 }

/-- CHANNELS (R78): channels 0-3 have 5.0 A, SAFETY; every other lamp-type channel 0.0 A, COMFORT, node 0. R78
gives no remote output: 0 stands there, the model's choice (entry 47). -/
def defaultChannel (i : Fin 25) : ChanCfg :=
  if i.val < 4 then { cls := .safety, nominal := 50, node := 0, output := 0 }
  else { cls := .comfort, nominal := 0, node := 0, output := 0 }

/-- LAMP_RULES (R115): the limp rule set. Value B of rules 0-3, which no table gives, is 0, the model's choice (entry
48). -/
def limpRule (i : Fin 32) : RuleCfg :=
  if h : i.val < 4 then
    { enabled := true, inputA := 0, compare := .ge, valueA := 0, inputB := none, valueB := 0, mask := 0b0100,
      target := ⟨i.val, Nat.lt_trans h (by decide)⟩, action := .steady, priority := 0, stale := .hold }
  else
    { enabled := false, inputA := 0, compare := .eq, valueA := 0, inputB := none, valueB := 0, mask := 0,
      target := 0, action := .steady, priority := 0, stale := .hold }

/-- FAN (R119). -/
def defaultFan : FanCfg :=
  { input := 0, duty1 := 40, duty2 := 70, duty3 := 100, rampStep := 10, grain := 255, nominal := 0,
    stallThreshold := 5, permission := .run, stale := .off }

/-- GAUGES (R131): curve n for gauge Gn. -/
def defaultGauge (i : Fin 4) : GaugeCfg :=
  { type := .coil, source := .supply, node := 0, slot := 0, curve := i, damping := 100, parkDrive := 0,
    lost := .park, open_ := .park, nominal := 0 }

/-- CURVES (08: Table 2): the straight line, the same for every curve. -/
def defaultPoint (i : Fin 32) : CurvePoint :=
  match i.val % 8 with
  | 0 => { reading := 0, drive := 0 }
  | 1 => { reading := 146, drive := 143 }
  | 2 => { reading := 292, drive := 286 }
  | 3 => { reading := 438, drive := 429 }
  | 4 => { reading := 585, drive := 571 }
  | 5 => { reading := 731, drive := 714 }
  | 6 => { reading := 877, drive := 857 }
  | _ => { reading := 1023, drive := 1000 }

/-- POWER (R179): capacity and limits 30.0 A, idle 30 s, settling 80 ms (code 2), threshold 13.00 V. -/
def defaultPower : PowerCfg :=
  { capacity := 300, runChg := 300, runDis := 300, acc := 300, crank := 300, parked := 300, idle := 30,
    settling := 2, threshold := 1300 }

/-- All writable tables at their defaults (R179). -/
def defaultTables (cut : Bool) : Tables :=
  { link := defaultLink cut
    pins := tab fun _ => { node := 0, role := .none, expected := none }
    adopt := tab fun _ => 0
    switchMap := tab fun _ => unusedMap
    channels := tab defaultChannel
    rules := tab limpRule
    fan := defaultFan
    gauges := tab defaultGauge
    curves := tab defaultPoint
    power := defaultPower
    dimmer := none }

/-- The default working node number: 40 plus the NODE straps (00: Pin summary; R179). -/
def defaultNode (straps : BitVec 3) : Nat := 40 + straps.toNat

end Sys2Proof.Machine
end

