-- ==== Sys2Proof/Machine/State.lean ====
section
/-! DEFINITION. The state of the part as plain data: every piece of state the manual names, the queue of waiting
commands, and the state right after reset. -/

namespace Sys2Proof.Machine

/-- A pair of like things, one for each port. -/
structure PerPort (α : Type) where
  front : α
  rear : α
  deriving DecidableEq, Repr

/-! ### Ports -/

/-- Port state (01: Table 6). -/
inductive LinkState where
  | down
  | seeking
  | up
  deriving DecidableEq, Repr

/-- State of the receive assembly (01: R5). -/
inductive RxPhase where
  | idle
  | header
  | body
  | discard
  deriving DecidableEq, Repr

/-- The take copy of the frame in reception (02: R22, R32). -/
inductive TakeCopy where
  /-- the frame is not to be taken -/
  | none
  /-- a receive-queue place is reserved -/
  | reserved
  /-- no place was free: a GOOD end makes the frame REFUSED -/
  | noPlace
  deriving DecidableEq, Repr

/-- The relay copy of the frame in reception (02: R22, R36, R37). -/
inductive RelayCopy where
  /-- not relayed, dropped at header time, or its cut-through was lost -/
  | none
  /-- a relay-queue place is reserved -/
  | reserved
  /-- being sent by the other port's transmitter -/
  | cutThrough
  deriving DecidableEq, Repr

/-- The receive assembly of a port, with what the frame relay decided of its frame at header time. -/
structure Rx where
  phase : RxPhase
  /-- bytes received after START -/
  bytes : List Byte
  /-- the high nibble of a byte half received -/
  half : Option Nibble
  take : TakeCopy
  relay : RelayCopy
  /-- check mode recorded at header time (02: R32) -/
  mode : CheckMode
  deriving DecidableEq, Repr

/-- Who sends the frame a transmitter is sending. -/
inductive TxOrigin where
  | notice
  | lampCommand
  | reply
  /-- a stored relay copy, with its arrival port -/
  | relayed (arrival : Port)
  /-- a cut-through relay, with its arrival port -/
  | cutThrough (arrival : Port)
  deriving DecidableEq, Repr

/-- Why a frame is to end with ABORT in the next symbol slot (01: R16, R17). -/
inductive AbortCause where
  /-- the port left UP -/
  | portLeft
  /-- the incoming frame of a cut-through ended bad -/
  | badFrame
  deriving DecidableEq, Repr

/-- A frame in transmission. -/
structure TxFrame where
  header : List Byte
  /-- the bytes after the header; for a cut-through not yet complete, every byte handed over so far -/
  payload : List Byte
  origin : TxOrigin
  /-- false while a cut-through is still arriving -/
  complete : Bool
  abort : Option AbortCause
  deriving DecidableEq, Repr

/-- State of a transmitter (01: R16). -/
inductive TxState where
  /-- sending FILL; how many FILL symbols since the last END or ABORT, counted to 2 -/
  | filling (fills : Nat)
  | sending (frame : TxFrame)
  | dark
  deriving DecidableEq, Repr

/-- What a transmitter last put on the line: the model's own record (entry 11). -/
structure SentFrame where
  /-- header, payload and check when ended with END; what was handed over when ended with ABORT -/
  bytes : List Byte
  aborted : Bool
  deriving DecidableEq, Repr

/-- The six counters of a port (01: R18). -/
structure Counters where
  fragments : Nat
  bad : Nat
  aborted : Nat
  refused : Nat
  relayDrops : Nat
  unknownKind : Nat
  deriving DecidableEq, Repr

/-- A port interface (01: R19). -/
structure PortRec where
  state : LinkState
  mode : CheckMode
  lock : CheckLock
  heldLock : Option CheckLock
  good : Nat
  bad : Nat
  alt : Nat
  reframe : Bool
  quiet : Option Nat
  rx : Rx
  tx : TxState
  counters : Counters
  lastSent : Option SentFrame
  deriving DecidableEq, Repr

/-! ### Frame relay -/

/-- A node-table entry (02: Table 4); the state follows from the age (R28). Times in ms. -/
structure NodeEntry where
  node : Nat
  port : Option Port
  role : Role
  /-- in 10 ms steps -/
  age : Nat
  moves : Nat
  window : Nat
  duplicate : Bool
  quietTime : Nat
  pinned : Bool
  expected : Option Port
  deriving DecidableEq, Repr

/-- A receive-queue entry (02: Table 7). -/
structure RxEntry where
  dest : Nat
  route : Nat
  source : Nat
  kind : Nat
  payload : List Byte
  arrival : Port
  mode : CheckMode
  lossMark : Bool
  deriving DecidableEq, Repr

/-- A relay-queue entry (02: R37); its arrival port is the queue's. -/
structure RelayEntry where
  header : List Byte
  payload : List Byte
  /-- ms since its entry time -/
  waited : Nat
  deriving DecidableEq, Repr

/-- The content of an own transmit queue entry (02: R40). -/
inductive OwnBody where
  | lampCommand (lit dim : Byte) (duty : Nat)
  /-- its content is taken at the START of its transmission (10: R178) -/
  | notice
  | reply (payload : List Byte)
  deriving DecidableEq, Repr

/-- An own transmit queue entry. -/
structure OwnEntry where
  dest : Nat
  source : Nat
  body : OwnBody
  deriving DecidableEq, Repr

/-- The frame relay (02: R44). -/
structure Relay where
  /-- the node table, in node-number order -/
  nodes : List NodeEntry
  ownTimer : Option Nat
  rxQueue : PerPort (List RxEntry)
  lossPending : PerPort Bool
  lastTaken : Port
  /-- by arrival port -/
  relayQueue : PerPort (List RelayEntry)
  ownQueue : PerPort (List OwnEntry)
  deriving DecidableEq, Repr

/-! ### Switch intake -/

/-- An input-image entry (03: Table 3); source node, source port and mapped are views. -/
structure Input where
  value : Nat
  fresh : Bool
  candidate : Option Nat
  count : Nat
  resync : Bool
  overLimit : Nat
  deriving DecidableEq, Repr

/-! ### Channels -/

/-- Demand of a lamp-type channel (04: Table 3); DIM with its duty in %. -/
inductive Demand where
  | none
  | steady
  | flash
  | telltale
  | dim (duty : Nat)
  deriving DecidableEq, Repr

/-- State of a channel (04: Table 3). -/
inductive ChanState where
  | off
  | waiting
  | on
  | ramping
  | shed
  | fault
  | unreachable
  deriving DecidableEq, Repr

/-- Fault kind (04: Table 3). -/
inductive FaultKind where
  | none
  | overload
  | short
  deriving DecidableEq, Repr

/-- The live fields of a channel (04: Table 3) but for the grant, which the arbiter holds, and lit, which is a
view. For channels 12-16 only the measured current of the fan is used; their other fields stay at their OFF
values (R66). -/
structure Chan where
  demand : Demand
  state : ChanState
  bulbOut : Bool
  fault : FaultKind
  latched : Bool
  retry : Nat
  retryTimer : Option Nat
  measured : Nat
  overload : Option Nat
  deriving DecidableEq, Repr

/-- A lamp-node record (04: R74). -/
structure LampNode where
  node : Nat
  reachable : Bool
  lit : Byte
  dim : Byte
  duty : Nat
  refresh : Option Nat
  /-- the two status bytes of the last LAMP_STATUS taken, none before the first -/
  status : Option (Byte × Byte)
  supply : Nat
  deriving DecidableEq, Repr

/-- The channel manager. -/
structure Channels where
  chans : Vector Chan 25
  lampNodes : List LampNode
  /-- ms to the once-per-phase sample (R67) -/
  flashSample : Option Nat
  deriving DecidableEq, Repr

/-! ### Budget arbiter -/

/-- A waiting claim (05: R84, R86). -/
structure Claim where
  chan : Fin 25
  amount : Nat
  cls : Class
  shed : Bool
  deriving DecidableEq, Repr

/-- The budget arbiter (05: R96); amounts in 0.1 A. -/
structure Arbiter where
  limit : Nat
  grants : Vector Nat 25
  claims : List Claim
  order : List (Fin 25)
  deriving DecidableEq, Repr

/-! ### Lamp logic -/

/-- The result of a channel with the index of the deciding rule (06: R102). -/
structure LampResult where
  demand : Demand
  rule : Option (Fin 32)
  deriving DecidableEq, Repr

/-- State of the flasher (06: R107). -/
inductive FlasherState where
  | idle
  | onPhase
  | offPhase
  deriving DecidableEq, Repr

/-- Rate of the flasher (06: R107). -/
inductive FlashRate where
  | normal
  | fast
  deriving DecidableEq, Repr

/-- The flasher (06: R107). -/
structure Flasher where
  state : FlasherState
  rate : FlashRate
  timer : Option Nat
  faultSeen : Bool
  deriving DecidableEq, Repr

/-- Lamp logic (06: R117); the results of channels 12-16 are never anything but NONE. -/
structure Lamps where
  results : Vector LampResult 25
  demandFlag : Bool
  flasher : Flasher
  deriving DecidableEq, Repr

/-! ### Fan -/

/-- State of the fan (07: Table 2). -/
inductive FanState where
  | stopped
  | waiting
  | ramping
  | running
  | stallWait
  | latched
  deriving DecidableEq, Repr

/-- Latch cause (07: R121). -/
inductive LatchCause where
  | none
  | stall
  | overload
  deriving DecidableEq, Repr

/-- The fan record (07: R130). -/
structure Fan where
  state : FanState
  target : Nat
  duty : Nat
  shedMark : Bool
  retry : Nat
  latchCause : LatchCause
  ramp : Option Nat
  stallWait : Option Nat
  overload : Option Nat
  stallCount : Nat
  /-- the next duty N of the claim in flight (R122; entry 21) -/
  nextDuty : Nat
  deriving DecidableEq, Repr

/-! ### Gauges -/

/-- State of a gauge (08: Table 5). -/
inductive GaugeState where
  | parked
  | settling
  | tracking
  | repeating
  | lost
  | parking
  deriving DecidableEq, Repr

/-- A sample (08: R138). -/
inductive Sample where
  | reading (r : Nat)
  | open_
  deriving DecidableEq, Repr

/-- Direction of the latest slip (08: R140). -/
inductive SlipKind where
  | none
  | drop
  | repeat_
  deriving DecidableEq, Repr

/-- A gauge record (08: Table 4); the output duty in 0.1 %. `parkDrive` and `lost` are the park drive and the lost
behaviour in use: a written one is taken at the next tick (08: R131; entry 22). -/
structure Gauge where
  state : GaugeState
  drive : Nat
  curveDrive : Nat
  output : Nat
  store : List Sample
  last : Option Sample
  slip : Bool
  lastSlip : SlipKind
  slipCount : Nat
  lostMark : Bool
  rampStart : Nat
  rampLeft : Nat
  parkDrive : Nat
  lost : GaugeBehaviour
  deriving DecidableEq, Repr

/-! ### Power manager -/

/-- Stage of the power-on sequence (09: R153). -/
inductive Stage where
  /-- held in brown-out reset -/
  | held
  /-- released, before the start stage; whether the load stage has run -/
  | released (loaded : Bool)
  | running
  deriving DecidableEq, Repr

/-- An ignition line (09: R149). -/
structure Line where
  raw : Bool
  level : Bool
  timer : Option Nat
  deriving DecidableEq, Repr

/-- Ignition state (09: Table 1). -/
inductive Ignition where
  | off
  | acc
  | run
  | crank
  deriving DecidableEq, Repr

/-- Charging state (05: R81). -/
inductive Charging where
  | discharging
  | charging
  deriving DecidableEq, Repr

/-- Power mode (09: R154). -/
inductive Mode where
  | running
  | standing
  | dormant
  | quiet
  | held
  deriving DecidableEq, Repr

/-- The interval timer: its use and the ms left (09: R156, R157). -/
inductive Interval where
  | none
  | settling (left : Nat)
  | idle (left : Nat)
  deriving DecidableEq, Repr

/-- The power manager (09: R163). -/
structure Power where
  stage : Stage
  acc : Line
  run : Line
  start : Line
  /-- the latest four samples, oldest first, in 0.01 V -/
  samples : Vector Nat 4
  charging : Charging
  mode : Mode
  interval : Interval
  settled : Bool
  reference : Bool
  deferral : Bool
  quiet : Option Nat
  deriving DecidableEq, Repr

/-! ### Management unit -/

/-- A request being served or waiting (10: R164). -/
structure Request where
  source : Nat
  arrival : Port
  /-- the op byte -/
  op : Nat
  table : Nat
  index : Nat
  data : List Byte
  deriving DecidableEq, Repr

/-- A prepared reply (10: R166). -/
structure Reply where
  dest : Nat
  arrival : Port
  source : Nat
  payload : List Byte
  deriving DecidableEq, Repr

/-- Store state (10: R179). -/
inductive StoreState where
  | valid
  | writing
  | invalid
  deriving DecidableEq, Repr

/-- The non-volatile store (10: R179). -/
structure Store where
  state : StoreState
  tables : Tables
  node : Nat
  deriving DecidableEq, Repr

/-- The management unit (10: R180). -/
structure Mgmt where
  slot : Option Request
  hold : List Reply
  windowTable : Nat
  windowIndex : Nat
  commit : Option Request
  sleep : Option Request
  active : BitVec 16
  changed : BitVec 16
  owed : Bool
  dropped : Nat
  /-- the working node number -/
  node : Nat
  tables : Tables
  store : Store
  deriving DecidableEq, Repr

/-! ### The part and the queue -/

/-- Everything of the part. -/
structure Part where
  ports : PerPort PortRec
  relay : Relay
  inputs : Vector Input 32
  channels : Channels
  arbiter : Arbiter
  lamps : Lamps
  fan : Fan
  gauges : Vector Gauge 4
  power : Power
  mgmt : Mgmt
  /-- NODE straps -/
  nodeStraps : BitVec 3
  /-- CUT strap -/
  cutStrap : Bool
  /-- which of a new limit and the claims of one change of mode reaches the arbiter first (entry 6) -/
  limitFirst : Bool
  deriving DecidableEq, Repr

/-- The machine: the part, and the commands that wait, first in, first out. -/
structure State where
  part : Part
  pending : List Instr
  deriving DecidableEq, Repr

/-- No rule of the manual stops the part, so there is no fault. -/
inductive Fault where
  deriving DecidableEq, Repr

/-- Why a step has no meaning. -/
inductive Refusal where
  /-- raised by an arm of `exec` whose command has no meaning yet; no arm is left so; safe -/
  | notModelled (mnemonic : String)
  deriving DecidableEq, Repr

/-! ### Values right after reset -/

/-- Receive assembly between frames. -/
def Rx.idle : Rx := { phase := .idle, bytes := [], half := none, take := .none, relay := .none, mode := .check16 }

/-- Counters at 0. -/
def Counters.zero : Counters :=
  { fragments := 0, bad := 0, aborted := 0, refused := 0, relayDrops := 0, unknownKind := 0 }

/-- A port after power-on (01: Table 11), with its lock and its transmitter. -/
def PortRec.powerOn (lock : CheckLock) (tx : TxState) : PortRec :=
  { state := .down, mode := .check16, lock := lock, heldLock := none, good := 0, bad := 0, alt := 0,
    reframe := false, quiet := none, rx := Rx.idle, tx := tx, counters := Counters.zero, lastSent := none }

/-- The frame relay after power-on (02: Table 9), before the pins are applied. -/
def Relay.powerOn : Relay :=
  { nodes := [], ownTimer := none, rxQueue := ⟨[], []⟩, lossPending := ⟨false, false⟩, lastTaken := .rear,
    relayQueue := ⟨[], []⟩, ownQueue := ⟨[], []⟩ }

/-- An input-image entry after power-on (03: Table 5). -/
def Input.cleared : Input :=
  { value := 0, fresh := false, candidate := none, count := 0, resync := true, overLimit := 0 }

/-- The OFF values of a channel (04: R63, R78). -/
def Chan.off : Chan :=
  { demand := .none, state := .off, bulbOut := false, fault := .none, latched := false, retry := 0,
    retryTimer := none, measured := 0, overload := none }

/-- The arbiter with nothing granted or waiting and a limit of 0.0 A (05: Table 4). -/
def Arbiter.empty : Arbiter := { limit := 0, grants := tab fun _ => 0, claims := [], order := [] }

/-- The flasher IDLE (06: R112). -/
def Flasher.idle : Flasher := { state := .idle, rate := .normal, timer := none, faultSeen := false }

/-- Lamp logic with no result (06: Table 10). -/
def Lamps.dark : Lamps :=
  { results := tab fun _ => { demand := .none, rule := none }, demandFlag := false, flasher := Flasher.idle }

/-- The fan STOPPED (07: Table 4, R124) with a target of 0 %. -/
def Fan.stopped : Fan :=
  { state := .stopped, target := 0, duty := 0, shedMark := false, retry := 0, latchCause := .none, ramp := none,
    stallWait := none, overload := none, stallCount := 0, nextDuty := 0 }

/-- The rest drive of a gauge by its type, with a park drive (08: R134). -/
def restDrive (t : GaugeType) (park : Nat) : Nat :=
  match t with
  | .coil => park
  | .thermal => 0

/-- The rest drive an entry gives (08: R134). -/
def GaugeCfg.rest (c : GaugeCfg) : Nat := restDrive c.type c.parkDrive

/-- A gauge PARKED at the rest drive of its entry, with no slips (08: Table 8). -/
def Gauge.parkedAt (c : GaugeCfg) : Gauge :=
  { state := .parked, drive := GaugeCfg.rest c, curveDrive := GaugeCfg.rest c, output := 0, store := [], last := none,
    slip := false, lastSlip := .none, slipCount := 0, lostMark := false, rampStart := 0, rampLeft := 0,
    parkDrive := c.parkDrive, lost := c.lost }

/-- The power manager at the release stage or held in reset (09: R153): the lines' raw levels and the samples go
on, all else is lost. -/
def Power.powerOn (stage : Stage) (acc run start : Bool) (debounce : Option Nat) (samples : Vector Nat 4) : Power :=
  { stage := stage
    acc := { raw := acc, level := false, timer := debounce }
    run := { raw := run, level := false, timer := debounce }
    start := { raw := start, level := false, timer := debounce }
    samples := samples, charging := .discharging, mode := .standing, interval := .none, settled := false,
    reference := false, deferral := false, quiet := none }

/-- The management unit before the load stage (10: Table 6), with the store it keeps. -/
def Mgmt.powerOn (store : Store) (straps : BitVec 3) (cut : Bool) : Mgmt :=
  { slot := none, hold := [], windowTable := 0, windowIndex := 0, commit := none, sleep := none, active := 0,
    changed := 0, owed := false, dropped := 0, node := defaultNode straps, tables := defaultTables cut,
    store := store }

/-- The power-on values of every block (R19, R44, R58, R78, R96, R117, R130, R148, R163, R180), for a stage of the
power-on sequence, a transmitter state, and what outlasts a reset: pins, samples and store. -/
def Part.powerOn (stage : Stage) (tx : TxState) (acc run start : Bool) (debounce : Option Nat)
    (samples : Vector Nat 4) (store : Store) (straps : BitVec 3) (cut limitFirst : Bool) : Part :=
  { ports := ⟨PortRec.powerOn .auto tx, PortRec.powerOn .auto tx⟩
    relay := Relay.powerOn
    inputs := tab fun _ => Input.cleared
    channels := { chans := tab fun _ => Chan.off, lampNodes := [], flashSample := none }
    arbiter := Arbiter.empty
    lamps := Lamps.dark
    fan := Fan.stopped
    gauges := tab fun g => Gauge.parkedAt (defaultGauge g)
    power := Power.powerOn stage acc run start debounce samples
    mgmt := Mgmt.powerOn store straps cut
    nodeStraps := straps
    cutStrap := cut
    limitFirst := limitFirst }

/-- The four samples at reset: 5.51 V, the least the release test of R153 admits (entry 5). -/
def resetSamples : Vector Nat 4 := tab fun _ => 551

/-- The store of a part that has never been written (entry 5). -/
def resetStore : Store := { state := .invalid, tables := defaultTables false, node := defaultNode 0 }

/-- Right after reset: stage 1 of the power-on sequence has just been taken (09: R153) at a first power-up. -/
def State.reset : State :=
  { part := Part.powerOn (.released false) (.filling 0) false false false (some 20) resetSamples resetStore 0
      false true
    pending := [] }

end Sys2Proof.Machine
end

