-- ==== Sys2Proof/Machine/Ops.lean ====
section
/-! DEFINITION. The named reads and writes of the part's records, and the views the manual derives from them. -/

namespace Sys2Proof.Machine

/-! ### Pairs by port -/

/-- The thing of a port. -/
def PerPort.get {α : Type} (v : PerPort α) : Port → α
  | .front => v.front
  | .rear => v.rear

/-- The pair with the thing of one port replaced. -/
def PerPort.set {α : Type} (v : PerPort α) (p : Port) (x : α) : PerPort α :=
  match p with
  | .front => { v with front := x }
  | .rear => { v with rear := x }

/-- The port record of a port. -/
def Part.port (s : Part) (p : Port) : PortRec := s.ports.get p

/-- One port record replaced. -/
def Part.setPort (s : Part) (p : Port) (r : PortRec) : Part := { s with ports := s.ports.set p r }

/-- One counter record changed. -/
def Part.count (s : Part) (p : Port) (f : Counters → Counters) : Part :=
  s.setPort p { s.port p with counters := f (s.port p).counters }

/-- A counter of 16 bits that holds at 65535 (01: R18). -/
def bump16 (n : Nat) : Nat := if n < 65535 then n + 1 else n

/-- A port is UP. -/
def Part.isUp (s : Part) (p : Port) : Bool := (s.port p).state == .up

/-- Both ports are DOWN. -/
def Part.bothDown (s : Part) : Bool := (s.port .front).state == .down && (s.port .rear).state == .down

/-! ### Numbers of the channels (04: Table 1) -/

/-- The kinds of channel. -/
inductive ChanKind where
  | lamp
  | fan
  | gauge (g : Fin 4)
  | remote
  deriving DecidableEq, Repr

/-- The kind of a channel is fixed by its number (R59). -/
def kindOf (ch : Fin 25) : ChanKind :=
  if ch.val < 12 then .lamp
  else if ch.val = 12 then .fan
  else if h : ch.val < 17 then .gauge ⟨ch.val - 13, by omega⟩
  else .remote

/-- Lamp channels and remote channels together (R59). -/
def lampType (ch : Fin 25) : Bool := ch.val < 12 || 17 ≤ ch.val

/-- Channel 12, the fan. -/
def fanChan : Fin 25 := 12

/-- The channel of gauge Gn is 13 + n (08: introduction). -/
def gaugeChan (g : Fin 4) : Fin 25 := ⟨13 + g.val, by omega⟩

/-- The channel of a local lamp. -/
def lampChan (l : Fin 12) : Fin 25 := ⟨l.val, by omega⟩

/-- All channels, in order. -/
def allChans : List (Fin 25) := List.finRange 25

/-- The lamp-type channels, in order. -/
def lampChans : List (Fin 25) := allChans.filter lampType

/-- The remote channels, in order. -/
def remoteChans : List (Fin 25) := allChans.filter fun ch => 17 ≤ ch.val

/-- The local lamps, in order. -/
def localLamps : List (Fin 12) := List.finRange 12

/-- The gauges, in order. -/
def allGauges : List (Fin 4) := List.finRange 4

/-! ### Records -/

/-- Live fields of a channel. -/
def Part.chan (s : Part) (ch : Fin 25) : Chan := s.channels.chans.get ch

/-- Live fields of one channel replaced. -/
def Part.setChan (s : Part) (ch : Fin 25) (c : Chan) : Part :=
  { s with channels := { s.channels with chans := put s.channels.chans ch c } }

/-- The grant a channel holds (04: Table 3). -/
def Part.grant (s : Part) (ch : Fin 25) : Nat := s.arbiter.grants.get ch

/-- The committed total, the sum of the grants (05: R83). -/
def Arbiter.committed (a : Arbiter) : Nat := (allChans.map a.grants.get).sum

/-- The committed total of the part. -/
def Part.committed (s : Part) : Nat := s.arbiter.committed

/-- The record of a gauge. -/
def Part.gauge (s : Part) (g : Fin 4) : Gauge := s.gauges.get g

/-- One gauge record replaced. -/
def Part.setGauge (s : Part) (g : Fin 4) (r : Gauge) : Part := { s with gauges := put s.gauges g r }

/-- An input-image entry. -/
def Part.input (s : Part) (i : Fin 32) : Input := s.inputs.get i

/-- The working tables. -/
def Part.tables (s : Part) : Tables := s.mgmt.tables

/-- The working tables replaced. -/
def Part.setTables (s : Part) (t : Tables) : Part := { s with mgmt := { s.mgmt with tables := t } }

/-- The configuration of a gauge. -/
def Part.gaugeCfg (s : Part) (g : Fin 4) : GaugeCfg := s.tables.gauges.get g

/-- The configuration of a channel. -/
def Part.chanCfg (s : Part) (ch : Fin 25) : ChanCfg := s.tables.channels.get ch

/-- The nominal current of a channel (04: Table 2). -/
def Part.nominal (s : Part) (ch : Fin 25) : Nat :=
  match kindOf ch with
  | .lamp | .remote => (s.chanCfg ch).nominal
  | .fan => s.tables.fan.nominal
  | .gauge g => (s.gaugeCfg g).nominal

/-- The class of a channel (04: Table 2). -/
def Part.classOf (s : Part) (ch : Fin 25) : Class :=
  match kindOf ch with
  | .lamp | .remote => (s.chanCfg ch).cls
  | .fan => .comfort
  | .gauge _ => .gauge

/-- The mode of the part. -/
def Part.mode (s : Part) : Mode := s.power.mode

/-- The part has passed the start stage of the power-on sequence. -/
def Part.on (s : Part) : Bool := s.power.stage == .running

/-- The part is running and frames are handled: every mode except QUIET (02: introduction). -/
def Part.awake (s : Part) : Bool := s.on && s.mode != .quiet

/-! ### Node table -/

/-- State of a node-table entry (02: Table 6). -/
inductive NodeState where
  | present
  | silent
  | lost
  deriving DecidableEq, Repr

/-- The state follows from the age (R28). -/
def nodeStateOf (age : Nat) : NodeState :=
  if age < 30 then .present else if age < 300 then .silent else .lost

/-- State of an entry. -/
def NodeEntry.state (e : NodeEntry) : NodeState := nodeStateOf e.age

/-- The entry of a node number, if it has one. -/
def findNode (nodes : List NodeEntry) (n : Nat) : Option NodeEntry := nodes.find? fun e => e.node == n

/-- An entry put in its place in node-number order, replacing the entry of the same number. -/
def putNode (e : NodeEntry) : List NodeEntry → List NodeEntry
  | [] => [e]
  | x :: xs =>
    if e.node < x.node then e :: x :: xs
    else if e.node = x.node then e :: xs
    else x :: putNode e xs

/-- The table without the entry of a number. -/
def dropNode (n : Nat) (nodes : List NodeEntry) : List NodeEntry := nodes.filter fun e => e.node != n

/-- The entry of a node number. -/
def Part.node (s : Part) (n : Nat) : Option NodeEntry := findNode s.relay.nodes n

/-- The node table replaced. -/
def Part.setNodes (s : Part) (nodes : List NodeEntry) : Part :=
  { s with relay := { s.relay with nodes := nodes } }

/-- The node table holds the number as PRESENT. -/
def Part.present (s : Part) (n : Nat) : Bool :=
  match s.node n with
  | some e => e.state == .present
  | none => false

/-- The number is heard on an UP port: PRESENT, on FRONT or REAR, and that port UP (03: R49; 04: R73). -/
def Part.heard (s : Part) (n : Nat) : Bool :=
  match s.node n with
  | some e =>
    e.state == .present && (match e.port with
      | some p => s.isUp p
      | none => false)
  | none => false

/-- A sender is available while its entry is PRESENT or SILENT (08: R135). -/
def Part.available (s : Part) (n : Nat) : Bool :=
  match s.node n with
  | some e => e.state != .lost
  | none => false

/-- A number of the adopted list (02: R23). -/
def Part.adopted (s : Part) (n : Nat) : Bool := n != 0 && s.tables.adopt.toList.contains n

/-- At least one adopted number is suspended (02: R24). -/
def Part.suspendedAny (s : Part) : Bool := s.tables.adopt.toList.any fun n => n != 0 && s.present n

/-! ### Views -/

/-- A gauge is driven in these four states (08: R134). -/
def GaugeState.driven : GaugeState → Bool
  | .tracking | .repeating | .lost | .parking => true
  | .parked | .settling => false

/-- The rest drive of a gauge: its type, with the park drive in use (08: R134, R131; entry 22). -/
def Part.restOf (s : Part) (g : Fin 4) : Nat := restDrive (s.gaugeCfg g).type (s.gauge g).parkDrive

/-- The claim a channel has in the claim queue. -/
def Part.claimOf (s : Part) (ch : Fin 25) : Option Claim := s.arbiter.claims.find? fun c => c.chan == ch

/-- The state of a channel as the channel table shows it (04: R62, R66; 07: Table 2; 08: Table 5). -/
def Part.chanState (s : Part) (ch : Fin 25) : ChanState :=
  match kindOf ch with
  | .lamp | .remote => (s.chan ch).state
  | .fan =>
    if s.fan.shedMark then .shed
    else match s.fan.state with
      | .stopped | .stallWait => .off
      | .waiting => .waiting
      | .ramping => .ramping
      | .running => .on
      | .latched => .fault
  | .gauge g =>
    match (s.gauge g).state with
    | .parked => .off
    | .settling =>
      if 0 < s.grant ch then .on
      else match s.claimOf ch with
        | some c => if c.shed then .shed else .waiting
        | none => .waiting
    | .tracking | .repeating | .lost | .parking => .on

/-- Lit of a lamp-type channel by its demand, its state and the flasher (04: Table 5). -/
def litBy (d : Demand) (st : ChanState) (f : FlasherState) : Bool :=
  st == .on && (match d with
    | .none => false
    | .steady | .dim _ => true
    | .flash | .telltale => f == .onPhase)

/-- Lit of any channel (04: R65, R66). -/
def Part.lit (s : Part) (ch : Fin 25) : Bool :=
  match kindOf ch with
  | .lamp | .remote => litBy (s.chan ch).demand (s.chan ch).state s.lamps.flasher.state
  | .fan => 0 < s.fan.duty
  | .gauge g => (s.gauge g).state.driven

/-- A demand the flasher serves. -/
def Demand.flashing : Demand → Bool
  | .flash | .telltale => true
  | .none | .steady | .dim _ => false

/-- Every gauge is PARKED. -/
def Part.allParked (s : Part) : Bool := allGauges.all fun g => (s.gauge g).state == .parked

/-- Every one of the 25 channels is OFF (09: R158). -/
def Part.allOff (s : Part) : Bool := allChans.all fun ch => s.chanState ch == .off

/-- The ignition state from the debounced levels (09: Table 1). -/
def ignitionOf (acc run start : Bool) : Ignition :=
  if start then .crank else if run then .run else if acc then .acc else .off

/-- The ignition state. -/
def Part.ignition (s : Part) : Ignition := ignitionOf s.power.acc.level s.power.run.level s.power.start.level

/-- The filtered supply: the mean of the four samples, a half rounded up (09: R152). -/
def filtered (v : Vector Nat 4) : Nat := (v.get 0 + v.get 1 + v.get 2 + v.get 3 + 2) / 4

/-- The filtered supply of the part, in 0.01 V. -/
def Part.supply (s : Part) : Nat := filtered s.power.samples

/-- The budget is DECOMPOSED while the limit is below the capacity and the grain below 255 (05: R94). -/
def Part.decomposed (s : Part) : Bool := s.arbiter.limit < s.tables.power.capacity && s.tables.fan.grain < 255

/-- The used SWITCH_MAP entry that feeds an input (03: R45). -/
def Part.mapEntry (s : Part) (i : Fin 32) : Option MapCfg :=
  s.tables.switchMap.toList.find? fun m => m.source != 0 && m.input == i

/-- The settling interval of a choice, in ms (09: R156). -/
def settlingMs (c : Fin 4) : Nat :=
  match c.val with
  | 0 => 20
  | 1 => 40
  | 2 => 80
  | _ => 160

end Sys2Proof.Machine
end

