-- ==== Sys2Proof/Machine/Check.lean ====
section
/-! DEFINITION. The frame checks and the outcome of a frame at END (01: R3, R4, R6). -/

namespace Sys2Proof.Machine

/-- One bit into the CHECK16 register; the generator is x^16 + x^15 + x^2 + 1 (R3). -/
def crcBit (r : BitVec 16) (b : Bool) : BitVec 16 :=
  if r.msb != b then (r <<< 1) ^^^ 0x8005#16 else r <<< 1

/-- One byte into the CHECK16 register, from its most significant bit (R3). -/
def crcByte (r : BitVec 16) (x : Byte) : BitVec 16 :=
  [7, 6, 5, 4, 3, 2, 1, 0].foldl (fun r i => crcBit r (x.getLsbD i)) r

/-- The CHECK16 check of header and payload bytes; the register is preset to all ones (R3). -/
def crc16 (bytes : List Byte) : BitVec 16 := bytes.foldl crcByte 0xFFFF#16

/-- The sum of bytes modulo 256 (R4). -/
def sum8 (bytes : List Byte) : Byte := bytes.foldl (· + ·) 0

/-- Length of the check in a mode (01: Table 2). -/
def checkLength : CheckMode → Nat
  | .check16 => 2
  | .sum8 => 1

/-- The check bytes a transmitter sends after header and payload (R3, R4). -/
def checkBytes (m : CheckMode) (bytes : List Byte) : List Byte :=
  match m with
  | .check16 => [(crc16 bytes).extractLsb' 8 8, (crc16 bytes).extractLsb' 0 8]
  | .sum8 => [-(sum8 bytes)]

/-- The check of received bytes passes (R3, R4): the bytes before the check give the check. -/
def checkPasses (m : CheckMode) (bytes : List Byte) : Bool :=
  match m with
  | .check16 => bytes.drop (bytes.length - 2) == checkBytes .check16 (bytes.take (bytes.length - 2))
  | .sum8 => sum8 bytes == 0

/-- How a frame that completed its header ends (01: R5, R6). -/
inductive FrameEnd where
  | good
  | short
  | long
  | badCheck
  | aborted
  deriving DecidableEq, Repr

/-- The source byte of a frame, its third. -/
def sourceByte (bytes : List Byte) : Nat := (bytes.getD 2 0).toNat

/-- The tests of Table 5 in order (R6), for a mode, the whole bytes received and a nibble left over. -/
def judge (m : CheckMode) (bytes : List Byte) (half : Option Nibble) : FrameEnd :=
  if bytes.length < 4 + checkLength m then .short
  else if m = .sum8 ∧ bytes.length = 22 then .long
  else if half.isSome then .badCheck
  else if !checkPasses m bytes then .badCheck
  else if sourceByte bytes = 0 ∨ sourceByte bytes = 63 then .badCheck
  else .good

/-- The other check mode. -/
def CheckMode.other : CheckMode → CheckMode
  | .check16 => .sum8
  | .sum8 => .check16

/-- The check mode a lock sets on entry to SEEKING (R13). -/
def lockMode : CheckLock → CheckMode
  | .fixed8 => .sum8
  | .auto | .fixed16 => .check16

end Sys2Proof.Machine
end

