-- ==== Sys2Proof/Machine/OwnQueue.lean ====
section
/-! DEFINITION. The own transmit queues (02: R40 to R42) and the replies of the management unit on their way into
them (10: R166). -/

namespace Sys2Proof.Machine

/-- An URGENT entry: LAMP_COMMAND and NOTICE (R40). -/
def OwnEntry.urgent (e : OwnEntry) : Bool :=
  match e.body with
  | .lampCommand _ _ _ | .notice => true
  | .reply _ => false

/-- An MG_REPLY entry. -/
def OwnEntry.isReply (e : OwnEntry) : Bool :=
  match e.body with
  | .reply _ => true
  | .lampCommand _ _ _ | .notice => false

/-- A NOTICE entry. -/
def OwnEntry.isNotice (e : OwnEntry) : Bool := e.body == .notice

/-- A LAMP_COMMAND entry. -/
def OwnEntry.isLampCommand (e : OwnEntry) : Bool := e.urgent && !e.isNotice

/-- The own transmit queue of a port. -/
def Part.ownQ (s : Part) (p : Port) : List OwnEntry := s.relay.ownQueue.get p

/-- The own transmit queue of a port replaced. -/
def Part.setOwnQ (s : Part) (p : Port) (q : List OwnEntry) : Part :=
  { s with relay := { s.relay with ownQueue := s.relay.ownQueue.set p q } }

/-- An MG_REPLY is queued in either own transmit queue (R41). -/
def Part.replyQueued (s : Part) : Bool := (s.ownQ .front).any (·.isReply) || (s.ownQ .rear).any (·.isReply)

/-- A NOTICE is queued in either own transmit queue (R41). -/
def Part.noticeQueued (s : Part) : Bool := (s.ownQ .front).any (·.isNotice) || (s.ownQ .rear).any (·.isNotice)

/-- The port of a known node: its entry has a port and is not DUPLICATE (R40). -/
def Part.knownPort (s : Part) (n : Nat) : Option Port :=
  match s.node n with
  | some e => if e.duplicate then none else e.port
  | none => none

/-- The queues a LAMP_COMMAND or NOTICE enters: the known node's, or both (R40). -/
def Part.targets (s : Part) (n : Nat) : List Port :=
  match s.knownPort n with
  | some p => [p]
  | none => [.front, .rear]

/-- The places of an own transmit queue (R40). -/
def ownPlaces : Nat := 8

/-- An entry into a queue: a LAMP_COMMAND takes the place of one waiting for the same node (R41), any other entry
the last place. A frame that finds all 8 places held is discarded, like one for a DOWN port: the model's choice (entry
45). -/
def enqueue (e : OwnEntry) (q : List OwnEntry) : List OwnEntry :=
  if e.isLampCommand && q.any (fun x => x.isLampCommand && x.dest == e.dest) then
    q.map fun x => if x.isLampCommand && x.dest == e.dest then e else x
  else if q.length < ownPlaces then q ++ [e]
  else q

/-- An own frame queued for one port; a DOWN port takes none (R40). -/
def queueOwn (e : OwnEntry) (s : Part) (p : Port) : Part :=
  if (s.port p).state = .down then s else s.setOwnQ p (enqueue e (s.ownQ p))

/-- A LAMP_COMMAND or NOTICE originated to a node, with the working node number as source (R40). -/
def originate (dest : Nat) (body : OwnBody) (s : Part) : Part :=
  (s.targets dest).foldl (queueOwn { dest := dest, source := s.mgmt.node, body := body }) s

/-- The request to queue a NOTICE to the service node; a waiting NOTICE absorbs it (R41; 10: R178). -/
def requestNotice (s : Part) : Part :=
  if s.tables.link.service = 0 ∨ s.noticeQueued then s else originate s.tables.link.service .notice s

/-- A prepared reply handed to the frame relay: queued on its request's port, or discarded when that port is DOWN
(R40; 10: R166). -/
def handReply (r : Reply) (s : Part) : Part :=
  queueOwn { dest := r.dest, source := r.source, body := .reply r.payload } s r.arrival

/-- The reply hold replaced. -/
def Part.setHold (s : Part) (h : List Reply) : Part := { s with mgmt := { s.mgmt with hold := h } }

/-- Held replies handed over, oldest first, until one is queued (10: R166). -/
def handHeldFrom : List Reply → Part → Part
  | [], s => s.setHold []
  | r :: rs, s => if s.replyQueued then s.setHold (r :: rs) else handHeldFrom rs (handReply r s)

/-- A queued MG_REPLY has left its queue: the oldest held reply is handed over (10: R166). -/
def handHeld (s : Part) : Part := handHeldFrom s.mgmt.hold s

/-- A reply prepared: it goes to the queue, or behind the held ones when a reply is queued (10: R166). -/
def prepareReply (r : Reply) (s : Part) : Part :=
  if s.replyQueued then s.setHold (s.mgmt.hold ++ [r]) else handReply r s

/-- A port entering DOWN discards its own transmit queue (R42). -/
def discardOwn (p : Port) (s : Part) : Part :=
  let s' := s.setOwnQ p []
  if (s.ownQ p).any (·.isReply) then handHeld s' else s'

end Sys2Proof.Machine
end

