-- ==== Sys2Proof/Machine/Flags.lean ====
section
/-! DEFINITION. The condition set (10: R176 to R178): the sixteen conditions, their causes, and what a change of an
active flag does. -/

namespace Sys2Proof.Machine

/-- The conditions, in the order of 10: Table 4. -/
inductive Cond where
  | bulbOut
  | channelFault
  | fanFault
  | senderLost
  | gaugeSlip
  | frontDown
  | rearDown
  | legacySegment
  | nodeTableFull
  | adoptClash
  | duplicateNode
  | queueLoss
  | shedActive
  | lowSupply
  | ignitionFault
  | nvFault
  deriving DecidableEq, Repr

/-- The number of a condition (10: Table 4). -/
def Cond.num : Cond → Nat
  | .bulbOut => 0
  | .channelFault => 1
  | .fanFault => 2
  | .senderLost => 3
  | .gaugeSlip => 4
  | .frontDown => 5
  | .rearDown => 6
  | .legacySegment => 7
  | .nodeTableFull => 8
  | .adoptClash => 9
  | .duplicateNode => 10
  | .queueLoss => 11
  | .shedActive => 12
  | .lowSupply => 13
  | .ignitionFault => 14
  | .nvFault => 15

/-- The mask of the two event conditions, GAUGE_SLIP and QUEUE_LOSS (R177). -/
def eventMask : BitVec 16 := 0x0810#16

/-- One bit of a flag set written. -/
def putBit (v : BitVec 16) (n : Nat) (b : Bool) : BitVec 16 :=
  if b then v ||| (1#16 <<< n) else v &&& ~~~(1#16 <<< n)

/-- The active flag of a condition. -/
def Part.active (s : Part) (c : Cond) : Bool := s.mgmt.active.getLsbD c.num

/-- The changed flag of a condition. -/
def Part.changed (s : Part) (c : Cond) : Bool := s.mgmt.changed.getLsbD c.num

/-- An active flag written with no other effect, as in the power-on sequence (R176). -/
def Part.markActive (s : Part) (c : Cond) (b : Bool) : Part :=
  { s with mgmt := { s.mgmt with active := putBit s.mgmt.active c.num b } }

/-- The changed flag of an enabled condition has gone from clear to set: the notice owed mark is set and a NOTICE
asked for (R178). -/
def oweNotice (c : Cond) (s : Part) : Part :=
  if s.tables.link.noticeMask.getLsbD c.num ∧ s.tables.link.service ≠ 0 then
    requestNotice { s with mgmt := { s.mgmt with owed := true } }
  else s

/-- An active flag raised or cleared: a flag already so changes nothing; a change sets the changed flag (R176). -/
def setCond (c : Cond) (b : Bool) (s : Part) : Part :=
  if s.active c = b then s
  else
    let s1 := s.markActive c b
    if s.changed c then s1
    else oweNotice c { s1 with mgmt := { s1.mgmt with changed := putBit s1.mgmt.changed c.num true } }

/-- A port whose lock is AUTO is in SUM8 mode (01: R14). -/
def PortRec.legacy (r : PortRec) : Bool := r.lock == .auto && r.mode == .sum8

/-- The level conditions whose cause can be read off the state, each with its cause. NODE_TABLE_FULL, LOW_SUPPLY
and NV_FAULT are set where their causes arise. -/
def levelCauses (s : Part) : List (Cond × Bool) :=
  [ (.bulbOut, allChans.any fun ch => (s.chan ch).bulbOut),          -- R68
    (.channelFault, allChans.any fun ch => s.chanState ch == .fault),  -- R72
    (.fanFault, s.fan.state == .latched),                              -- R129
    (.senderLost, allGauges.any fun g => (s.gauge g).lostMark),        -- R144
    (.frontDown, !s.isUp .front),                                      -- R10
    (.rearDown, !s.isUp .rear),                                        -- R10
    (.legacySegment, (s.port .front).legacy || (s.port .rear).legacy), -- R14
    (.adoptClash, s.suspendedAny),                                     -- R24
    (.duplicateNode, s.relay.nodes.any (·.duplicate) || s.relay.ownTimer.isSome), -- R27, R31
    (.shedActive, allChans.any fun ch => s.chanState ch == .shed),     -- R93
    (.ignitionFault, s.power.start.level && !s.power.run.level) ]      -- R150

/-- The level conditions follow their causes (R176). In the power-on sequence the flags stay as they are until the
start stage (R153). -/
def syncConds (s : Part) : Part :=
  if s.on then (levelCauses s).foldl (fun t x => setCond x.1 x.2 t) s else s

end Sys2Proof.Machine
end

