-- ==== Sys2Proof/Machine/Lights.lean ====
section
/-! DEFINITION. What lit outputs bring with them: the start of the flasher (06: R108), the reset of overload
timers (04: R69), the masks of the lamp-node records (R74) and the LAMP_COMMAND frames they originate (R75). -/

namespace Sys2Proof.Machine

/-! ### Lamp-node records -/

/-- The remote channels a lamp node carries (R60): nominal current above 0.0 A and this remote node. -/
def Part.remotesOf (s : Part) (n : Nat) : List (Fin 25) :=
  remoteChans.filter fun ch => 0 < (s.chanCfg ch).nominal && (s.chanCfg ch).node == n

/-- A demand of DIM, with its duty. -/
def Demand.dimDuty : Demand → Option Nat
  | .dim d => some d
  | .none | .steady | .flash | .telltale => Option.none

/-- The channel is lit with a DIM demand. -/
def Part.litDim (s : Part) (ch : Fin 25) : Bool := s.lit ch && (s.chan ch).demand.dimDuty.isSome

/-- The mask of the outputs that the channels of a list are on. -/
def Part.outputMask (s : Part) (chs : List (Fin 25)) : Byte :=
  chs.foldl (fun m ch => m ||| (1#8 <<< (s.chanCfg ch).output)) 0

/-- The lit mask of a lamp node (R74). -/
def Part.litMask (s : Part) (n : Nat) : Byte := s.outputMask ((s.remotesOf n).filter s.lit)

/-- The dim mask of a lamp node (R74). -/
def Part.dimMask (s : Part) (n : Nat) : Byte := s.outputMask ((s.remotesOf n).filter s.litDim)

/-- The dim duty of a lamp node (R74): that of its DIM demands, 100 % when none is lit. -/
def Part.nodeDuty (s : Part) (n : Nat) : Nat :=
  match (s.remotesOf n).find? s.litDim with
  | some ch => ((s.chan ch).demand.dimDuty).getD 100
  | none => 100

/-- A record with the masks as they stand. -/
def LampNode.shown (s : Part) (r : LampNode) : LampNode :=
  { r with lit := s.litMask r.node, dim := s.dimMask r.node, duty := s.nodeDuty r.node }

/-- The lamp-node records replaced. -/
def Part.setLampNodes (s : Part) (rs : List LampNode) : Part :=
  { s with channels := { s.channels with lampNodes := rs } }

/-- The record of a lamp node. -/
def Part.lampNode (s : Part) (n : Nat) : Option LampNode := s.channels.lampNodes.find? fun r => r.node == n

/-- The record of one lamp node changed. -/
def Part.onLampNode (s : Part) (n : Nat) (f : LampNode → LampNode) : Part :=
  s.setLampNodes (s.channels.lampNodes.map fun r => if r.node = n then f r else r)

/-- A remote channel of the node is in a state other than OFF. -/
def Part.nodeInUse (s : Part) (n : Nat) : Bool := (s.remotesOf n).any fun ch => (s.chan ch).state != .off

/-- A LAMP_COMMAND to a lamp node with its record's masks; the refresh timer restarts or stops (R75). None is
originated while HELD. -/
def commandNode (s : Part) (n : Nat) : Part :=
  match s.lampNode n with
  | none => s
  | some r =>
    if s.mode = .held then s
    else
      (originate n (.lampCommand r.lit r.dim r.duty) s).onLampNode n fun r =>
        { r with refresh := if s.nodeInUse n then some 200 else none }

/-- The masks follow the lit fields; each changed record originates a LAMP_COMMAND (R75). -/
def refreshMasks (s : Part) : Part :=
  let due := (s.channels.lampNodes.filter fun r => r.shown s != r).map (·.node)
  due.foldl commandNode (s.setLampNodes (s.channels.lampNodes.map (·.shown s)))

/-! ### Overload timers -/

/-- The overload timer of an output that is not lit is reset (R69). -/
def dropTimers (s : Part) : Part :=
  { s with channels := { s.channels with
      chans := tab fun ch => if s.lit ch then s.chan ch else { s.chan ch with overload := none } } }

/-! ### The flasher -/

/-- The flasher replaced. -/
def Part.setFlasher (s : Part) (f : Flasher) : Part := { s with lamps := { s.lamps with flasher := f } }

/-- A FLASH channel has bulb_out set or is UNREACHABLE (06: R108, R109). -/
def Part.flashFault (s : Part) : Bool :=
  lampChans.any fun ch =>
    (s.chan ch).demand == .flash && ((s.chan ch).bulbOut || (s.chan ch).state == .unreachable)

/-- A channel with a FLASH or TELLTALE demand is ON. -/
def Part.flashOn (s : Part) : Bool :=
  lampChans.any fun ch => (s.chan ch).demand.flashing && (s.chan ch).state == .on

/-- The length of a phase, in ms (06: Table 6). -/
def phaseMs : FlashRate → Nat
  | .normal => 375
  | .fast => 190

/-- The ON_PHASE edge at a rate: seed, timer, state, and the once-per-phase sample 100 ms later (06: R108, R109;
04: R67). -/
def onEdge (rate : FlashRate) (s : Part) : Part :=
  let s1 := s.setFlasher
    { state := .onPhase, rate := rate, timer := some (phaseMs rate), faultSeen := s.flashFault }
  { s1 with channels := { s1.channels with flashSample := some 100 } }

/-- The flasher leaves IDLE when a flashing channel is ON (06: R108). -/
def flashStart (s : Part) : Part :=
  if s.lamps.flasher.state = .idle ∧ s.flashOn then onEdge .normal s else s

/-- A report to lamp logic about a channel: the fault-seen flag is set when its demand is FLASH and the flasher is
not IDLE (06: R111). -/
def noteFault (ch : Fin 25) (s : Part) : Part :=
  if (s.chan ch).demand = .flash ∧ s.lamps.flasher.state ≠ .idle then
    s.setFlasher { s.lamps.flasher with faultSeen := true }
  else s

/-- The lit fields after a change of demand, state or phase (04: R65), with all they bring. -/
def settleLights (s : Part) : Part := refreshMasks (dropTimers (flashStart s))

end Sys2Proof.Machine
end

