-- ==== Sys2Proof/Machine/FanCore.lean ====
section
/-! DEFINITION. The sizing of fan claims (07: R122) and what the fan does at a grant (R123) and at a shed (R125). -/

namespace Sys2Proof.Machine

/-- The need of a duty for a nominal current, in 0.1 A (R122). -/
def need (nominal duty : Nat) : Nat := (duty * nominal + 99) / 100

/-- The next duty N (R122). -/
def nextDuty (step duty target : Nat) : Nat := min (duty + step) target

/-- The claim of a ramp step (R122), for the FAN entry, the decomposition state, the present duty, the target and
the grant held. -/
def sizeClaim (c : FanCfg) (decomposed : Bool) (duty target grant : Nat) : Option Nat :=
  let w := need c.nominal (nextDuty c.rampStep duty target)
  if w ≤ grant then none
  else if decomposed then some (min (w - grant) c.grain)
  else some (need c.nominal target - grant)

/-- The highest duty up to a bound that an amount pays for (R122). -/
def highestPaid (nominal paid : Nat) : Nat → Nat
  | 0 => 0
  | d + 1 => if need nominal (d + 1) ≤ paid then d + 1 else highestPaid nominal paid d

/-- The fan record replaced. -/
def Part.setFan (s : Part) (f : Fan) : Part := { s with fan := f }

/-- A duty the fan has paid for is taken: RUNNING at the target, RAMPING with its timer at 100 ms below it; a
change of duty resets the stall count and the overload timer (R123, R126, R128). The timer then stands still until the
next crossing of the level, also where the current is above the new level already: the model's choice (entry 55). -/
def Fan.atDuty (f : Fan) (duty : Nat) : Fan :=
  { f with
    duty := duty, stallCount := 0, overload := none
    state := if duty = f.target then .running else .ramping
    ramp := if duty = f.target then none else some 100 }

/-- A fan claim has been granted (R123). -/
def fanGranted (s : Part) : Part :=
  let d := highestPaid s.tables.fan.nominal (s.grant fanChan) s.fan.nextDuty
  s.setFan { s.fan.atDuty d with shedMark := false }

/-- The first claim toward a target (R122). -/
def Part.firstClaim (s : Part) (target : Nat) : Nat :=
  (sizeClaim s.tables.fan s.decomposed 0 target 0).getD 0

/-- The fan has been shed (R125). -/
def fanShed (s : Part) : Part :=
  s.setFan { s.fan with
    duty := 0, ramp := none, state := .waiting, shedMark := true, stallCount := 0, overload := none
    nextDuty := nextDuty s.tables.fan.rampStep 0 s.fan.target }

/-- The values of STOPPED (R124); the target is 0 %. -/
def fanStopped (s : Part) : Part := s.setFan Fan.stopped

end Sys2Proof.Machine
end

