-- ==== Sys2Proof/Machine/GaugeCore.lean ====
section
/-! DEFINITION. What a gauge does at a grant (08: R136) and at a shed (R146), and how it comes to PARKED. -/

namespace Sys2Proof.Machine

/-- Sample store empty (R138) and last sample none. R144, R146 and R148 take both; that the last sample goes with the
store at ignition OFF too is the model's choice (entry 61). -/
def Gauge.emptied (r : Gauge) : Gauge := { r with store := [], last := none }

/-- The gauge is not driven: output off, drive at the rest drive, no samples (R143, R138). The curve drive keeps its
figure, since Table 8 gives it a value at power-on, HOLD and RELEASE alone: the model's choice (entry 50). -/
def Gauge.undriven (r : Gauge) (st : GaugeState) (rest : Nat) : Gauge :=
  { r.emptied with state := st, output := 0, drive := rest, rampLeft := 0 }

/-- One gauge sent out of the driven states. -/
def undrive (g : Fin 4) (st : GaugeState) (s : Part) : Part :=
  s.setGauge g ((s.gauge g).undriven st (s.restOf g))

/-- The state a gauge is driven in at first: REPEATING for a SENDER gauge, TRACKING for a SUPPLY gauge (R136). -/
def GaugeCfg.entryState (c : GaugeCfg) : GaugeState :=
  match c.source with
  | .sender => .repeating
  | .supply => .tracking

/-- A gauge enters its first driven state with store empty and last sample none; any ramp ends (R136, R145). -/
def Gauge.entered (r : Gauge) (c : GaugeCfg) : Gauge := { r.emptied with state := GaugeCfg.entryState c, rampLeft := 0 }

/-- A SETTLING gauge that holds its grant leaves SETTLING once the settled flag is set (R136). -/
def leaveSettling (g : Fin 4) (s : Part) : Part :=
  if (s.gauge g).state = .settling ∧ 0 < s.grant (gaugeChan g) ∧ s.power.settled then
    s.setGauge g ((s.gauge g).entered (s.gaugeCfg g))
  else s

/-- A gauge has been shed (R146): a LOST or PARKING gauge goes to PARKED, and its shed claim is withdrawn by the
arbiter's own shed step. -/
def gaugeShed (g : Fin 4) (s : Part) : Part :=
  match (s.gauge g).state with
  | .tracking | .repeating => undrive g .settling s
  | .lost | .parking => undrive g .parked s
  | .parked | .settling => s

end Sys2Proof.Machine
end

