-- ==== Sys2Proof/Machine/Budget.lean ====
section
/-! DEFINITION. The budget arbiter (05): claims, granting passes, releases and sheds. -/

namespace Sys2Proof.Machine

/-! ### The arbiter's own records -/

/-- The arbiter replaced. -/
def Part.setArbiter (s : Part) (a : Arbiter) : Part := { s with arbiter := a }

/-- Class order of the claim queue (R86). -/
def Class.rank : Class → Nat
  | .safety => 0
  | .gauge => 1
  | .comfort => 2

/-- Place of a claim by class and shed standing (R86). -/
def Claim.key (c : Claim) : Nat := 2 * Class.rank c.cls + if c.shed then 0 else 1

/-- A claim takes the last place among claims of its class and standing (R86). -/
def insertClaim (c : Claim) : List Claim → List Claim
  | [] => [c]
  | x :: xs => if c.key < x.key then c :: x :: xs else x :: insertClaim c xs

/-- The queue without the claim of a channel. -/
def Arbiter.unclaim (a : Arbiter) (ch : Fin 25) : Arbiter :=
  { a with claims := a.claims.filter fun c => c.chan != ch }

/-- A grant lowered to a figure; at 0.0 A the channel leaves the grant order (R87, R90). -/
def Arbiter.lower (a : Arbiter) (ch : Fin 25) (keep : Nat) : Arbiter :=
  let g := min keep (a.grants.get ch)
  { a with
    grants := put a.grants ch g
    order := if g = 0 then a.order.filter (· != ch) else a.order }

/-- Claim withdrawn and grant released whole. -/
def Arbiter.vacate (a : Arbiter) (ch : Fin 25) : Arbiter := (a.unclaim ch).lower ch 0

/-- A grant made: added to the channel's grant, the channel last in the grant order (R90). -/
def Arbiter.give (a : Arbiter) (ch : Fin 25) (amount : Nat) : Arbiter :=
  { a with
    grants := put a.grants ch (a.grants.get ch + amount)
    order := a.order.filter (· != ch) ++ [ch] }

/-- The waiting claim of a channel takes a new amount in place (R85). -/
def Arbiter.reprice (a : Arbiter) (ch : Fin 25) (amount : Nat) : Arbiter :=
  { a with claims := a.claims.map fun c => if c.chan = ch then { c with amount := amount } else c }

/-- An amount fits under the limit in force (R85, R88). -/
def Arbiter.fits (a : Arbiter) (amount : Nat) : Bool := a.committed + amount ≤ a.limit

/-- A channel has a claim in the queue. -/
def Arbiter.waits (a : Arbiter) (ch : Fin 25) : Bool := a.claims.any fun c => c.chan == ch

/-! ### Grants -/

/-- A grant handed to the channel's owner (R90): a lamp-type channel is ON (04: R64), the fan raises its duty
(07: R123), a gauge may leave SETTLING (08: R136). -/
def handGrant (ch : Fin 25) (s : Part) : Part :=
  match kindOf ch with
  | .lamp | .remote => settleLights (s.setChan ch { s.chan ch with state := .on })
  | .fan => fanGranted s
  | .gauge g => leaveSettling g s

/-- A grant made and handed over (R90). -/
def giveGrant (ch : Fin 25) (amount : Nat) (s : Part) : Part :=
  handGrant ch (s.setArbiter (s.arbiter.give ch amount))

/-- At most so many heads of the queue granted (R88). -/
def grantHeads : Nat → Part → Part
  | 0, s => s
  | n + 1, s =>
    match s.arbiter.claims with
    | [] => s
    | c :: cs =>
      if s.arbiter.fits c.amount then
        grantHeads n (giveGrant c.chan c.amount (s.setArbiter { s.arbiter with claims := cs }))
      else s

/-- A granting pass (R88). No owner claims within it, so it looks at each waiting claim at most once. -/
def grantPass (s : Part) : Part := grantHeads s.arbiter.claims.length s

/-- The granting pass that ends releases and withdrawals (R87, R88): none is due when nothing was given back. -/
def passAfter (old : Part) (s : Part) : Part := if s.arbiter = old.arbiter then s else grantPass s

/-- A claim arrives (R85). -/
def makeClaim (ch : Fin 25) (amount : Nat) (s : Part) : Part :=
  if s.arbiter.waits ch then grantPass (s.setArbiter (s.arbiter.reprice ch amount))
  else if s.arbiter.claims.isEmpty ∧ s.arbiter.fits amount then giveGrant ch amount s
  else
    let c : Claim := { chan := ch, amount := amount, cls := s.classOf ch, shed := false }
    grantPass (s.setArbiter { s.arbiter with claims := insertClaim c s.arbiter.claims })

/-! ### Sheds -/

/-- The latest channel of a class in the grant order. -/
def Part.latestOf (s : Part) (c : Class) : Option (Fin 25) :=
  (s.arbiter.order.filter fun ch => s.classOf ch == c).getLast?

/-- The next victim (R91). -/
def Part.victim (s : Part) : Option (Fin 25) :=
  (s.latestOf .comfort).orElse fun _ => (s.latestOf .gauge).orElse fun _ => s.latestOf .safety

/-- The amount of a shed claim (R92). -/
def Part.shedAmount (s : Part) (ch : Fin 25) : Nat :=
  match kindOf ch with
  | .fan => s.firstClaim s.fan.target
  | .lamp | .remote | .gauge _ => s.nominal ch

/-- A LOST or PARKING gauge makes no use of its shed claim (08: R146). -/
def Part.shedClaimStays (s : Part) (ch : Fin 25) : Bool :=
  match kindOf ch with
  | .gauge g => (s.gauge g).state != .lost && (s.gauge g).state != .parking
  | .lamp | .remote | .fan => true

/-- A shed handed to the channel's owner (R92; 04: R64). -/
def handShed (ch : Fin 25) (s : Part) : Part :=
  match kindOf ch with
  | .lamp | .remote =>
    settleLights (s.setChan ch { s.chan ch with state := .shed, bulbOut := false, measured := 0 })
  | .fan => fanShed s
  | .gauge g => gaugeShed g s

/-- One channel shed (R92). -/
def shedOne (ch : Fin 25) (s : Part) : Part :=
  let a := s.arbiter.vacate ch
  let c : Claim := { chan := ch, amount := s.shedAmount ch, cls := s.classOf ch, shed := true }
  let claims := if s.shedClaimStays ch then insertClaim c a.claims else a.claims
  handShed ch (s.setArbiter { a with claims := claims })

/-- At most so many sheds, until the committed total is at most the limit (R91). -/
def shedSome : Nat → Part → Part
  | 0, s => s
  | n + 1, s =>
    if s.committed ≤ s.arbiter.limit then s
    else match s.victim with
      | none => s
      | some ch => shedSome n (shedOne ch s)

/-- A limit in force handed to the arbiter (R89). The conditions follow at once, so that a SHED_ACTIVE raised here
and cleared later in the same event still leaves its changed flag set. -/
def setLimit (new : Nat) (s : Part) : Part :=
  if new = s.arbiter.limit then s
  else
    let s1 := s.setArbiter { s.arbiter with limit := new }
    syncConds (if s.arbiter.limit < new then grantPass s1 else shedSome s1.arbiter.order.length s1)

end Sys2Proof.Machine
end

