-- ==== Sys2Proof/Machine/Channels.lean ====
section
/-! DEFINITION. The channel manager (04): demands, sensing, faults, lamp nodes. -/

namespace Sys2Proof.Machine

/-! ### Demands (R63) -/

/-- A remote channel whose node is unreachable (R73). -/
def Part.unreachable (s : Part) (ch : Fin 25) : Bool :=
  kindOf ch == .remote && !(match s.lampNode (s.chanCfg ch).node with
    | some r => r.reachable
    | none => false)

/-- A remote channel has left OFF: its node is refreshed from now on, so a refresh timer that stands still starts
(R76; entry 51). -/
def startRefresh (ch : Fin 25) (s : Part) : Part :=
  if kindOf ch = .remote then
    s.onLampNode (s.chanCfg ch).node fun r => { r with refresh := some (r.refresh.getD 200) }
  else s

/-- A claim for the whole nominal current, or UNREACHABLE with no claim (R63). -/
def claimChan (ch : Fin 25) (s : Part) : Part :=
  if s.unreachable ch then
    settleLights (noteFault ch (startRefresh ch (s.setChan ch { s.chan ch with state := .unreachable })))
  else makeClaim ch (s.nominal ch) (startRefresh ch (s.setChan ch { s.chan ch with state := .waiting }))

/-- The channel at its OFF values, its claim withdrawn and its grant released (R63). -/
def turnOff (ch : Fin 25) (s : Part) : Part :=
  let s1 := s.setChan ch Chan.off
  passAfter s (settleLights (s1.setArbiter (s1.arbiter.vacate ch)))

/-- A change of demand handed by lamp logic (R63). -/
def setDemand (ch : Fin 25) (d : Demand) (s : Part) : Part :=
  if (s.chan ch).demand = d then s
  else if d = .none then turnOff ch s
  else
    let s1 := s.setChan ch { s.chan ch with demand := d }
    if (s.chan ch).state = .off then
      if s.nominal ch = 0 then s1 else claimChan ch s1
    else
      let s2 := settleLights s1
      if (s.chan ch).bulbOut ∨ (s.chan ch).state = .unreachable then noteFault ch s2 else s2

/-! ### Sensing and faults -/

/-- A sample judged (R68); a bulb_out that becomes set is reported to lamp logic. BULB_OUT follows at once, so that
one cleared by a sample and raised by the next of the same step changes twice. -/
def setBulbOut (ch : Fin 25) (out : Bool) (s : Part) : Part :=
  let s1 := s.setChan ch { s.chan ch with bulbOut := out }
  syncConds (if out && !(s.chan ch).bulbOut then noteFault ch s1 else s1)

/-- A sample of a lit local lamp (R67, R68). -/
def sampleLamp (ch : Fin 25) (current : Nat) (s : Part) : Part :=
  setBulbOut ch (2 * current < s.nominal ch) (s.setChan ch { s.chan ch with measured := current })

/-- A channel goes to FAULT: output off, grant released (R69, R71). -/
def faultChan (ch : Fin 25) (kind : FaultKind) (latched : Bool) (retry : Option Nat) (s : Part) : Part :=
  let c := { s.chan ch with
    state := ChanState.fault, fault := kind, latched := latched, retryTimer := retry, bulbOut := false, measured := 0,
    overload := none }
  let s1 := s.setChan ch c
  passAfter s (settleLights (s1.setArbiter (s1.arbiter.vacate ch)))

/-- OVERLOAD of a lamp (R69). -/
def overloadChan (ch : Fin 25) (s : Part) : Part :=
  if (s.chan ch).retry < 3 then faultChan ch .overload false (some 1000) s
  else faultChan ch .overload true none s

/-- SHORT of a lamp (R71, R77). -/
def shortChan (ch : Fin 25) (s : Part) : Part := faultChan ch .short true none s

/-- The re-claim of a FAULT channel (R70). -/
def retryChan (ch : Fin 25) (s : Part) : Part :=
  claimChan ch (s.setChan ch { s.chan ch with retry := (s.chan ch).retry + 1, retryTimer := none })

/-! ### Lamp nodes -/

/-- A remote channel of a node that has become unreachable (R73); the arbiter runs its pass when all are done. -/
def loseChan (s : Part) (ch : Fin 25) : Part :=
  match (s.chan ch).state with
  | .waiting | .on | .shed =>
    let c := { s.chan ch with state := ChanState.unreachable, bulbOut := false, measured := 0 }
    noteFault ch ((s.setChan ch c).setArbiter (s.arbiter.vacate ch))
  | .off | .ramping | .fault | .unreachable => s

/-- A lamp node has become unreachable (R73); the arbiter runs its pass when all are done. -/
def loseNode (s : Part) (n : Nat) : Part :=
  let s1 := s.onLampNode n fun r => { r with reachable := false }
  settleLights ((s1.remotesOf n).foldl loseChan s1)

/-- An UNREACHABLE channel of a node that has become reachable claims afresh (R73). -/
def regainChan (s : Part) (ch : Fin 25) : Part :=
  if (s.chan ch).state = .unreachable then claimChan ch s else s

/-- A lamp node has become reachable (R73); a LAMP_COMMAND goes to it (R75). -/
def regainNode (s : Part) (n : Nat) : Part :=
  let s1 := s.onLampNode n fun r => { r with reachable := true }
  (s1.remotesOf n).foldl regainChan (commandNode s1 n)

/-- The lamp nodes whose reachability is out of date and is to become this (R73). -/
def Part.nodesTurned (s : Part) (reachable : Bool) : List Nat :=
  (s.channels.lampNodes.filter fun r => r.reachable != reachable && s.heard r.node == reachable).map (·.node)

/-- The reachability of every lamp node computed again (R73): those lost first, with one granting pass, then those that
are back (entry 30). -/
def followNodes (s : Part) : Part :=
  (s.nodesTurned true).foldl regainNode (passAfter s ((s.nodesTurned false).foldl loseNode s))

/-- The numbers of the lamp nodes, in the order of the channels that name them (R60; entry 19). -/
def Part.lampNodeNumbers (s : Part) : List Nat :=
  ((remoteChans.filter fun ch => 0 < (s.chanCfg ch).nominal).map fun ch => (s.chanCfg ch).node).eraseDups

/-- A record for a lamp node new to the part (R74), with its reachability as it stands. -/
def LampNode.fresh (s : Part) (n : Nat) : LampNode :=
  { node := n, reachable := s.heard n, lit := 0, dim := 0, duty := 100, refresh := none, status := none, supply := 0 }

/-- The records built again from CHANNELS (R61, R74); a node that stays keeps its record. -/
def rebuildRecords (s : Part) : Part :=
  s.setLampNodes (s.lampNodeNumbers.map fun n => (s.lampNode n).getD (LampNode.fresh s n))

/-- Records with clear masks and stopped timers (R78). -/
def LampNode.cleared (r : LampNode) : LampNode := { r with lit := 0, dim := 0, duty := 100, refresh := none }

/-- Every lamp-type channel forced OFF with its records cleared (R78); the fan and gauge channels follow their
own records. -/
def forceOff (s : Part) : Part :=
  { s with channels :=
    { chans := tab fun _ => Chan.off, lampNodes := s.channels.lampNodes.map (·.cleared), flashSample := none } }

end Sys2Proof.Machine
end

