-- ==== Sys2Proof/Machine/Lamps.lean ====
section
/-! DEFINITION. Lamp logic (06): the truth of the rules, the results, and the handing of the changes. -/

namespace Sys2Proof.Machine

/-! ### Rules -/

/-- Term A on a value (R100). -/
def compareTrue (c : Compare) (value figure : Nat) : Bool :=
  match c with
  | .eq => value == figure
  | .ne => value != figure
  | .ge => figure ≤ value

/-- A term on an input: its test when FRESH, the stale behaviour when STALE (R100). -/
def termTrue (stale : RuleStale) (i : Input) (test : Nat → Bool) : Bool :=
  if i.fresh then test i.value
  else match stale with
    | .hold => test i.value
    | .forceOn => true
    | .forceOff => false

/-- The bit of an ignition state in a mask (11: Table 7, LAMP_RULES). -/
def ignitionBit : Ignition → Nat
  | .off => 0
  | .acc => 1
  | .run => 2
  | .crank => 3

/-- A rule is satisfied (R101). -/
def Part.satisfied (s : Part) (r : RuleCfg) : Bool :=
  r.enabled
  && r.mask.getLsbD (ignitionBit s.ignition)
  && termTrue r.stale (s.input r.inputA) (fun v => compareTrue r.compare v r.valueA)
  && (match r.inputB with
      | none => true
      | some b => termTrue r.stale (s.input b) (· == r.valueB))

/-- The rule that decides between one found so far and the next in index order (R102). -/
def Part.better (s : Part) (ch : Fin 25) (best : Option (Fin 32)) (i : Fin 32) : Option (Fin 32) :=
  let r := s.tables.rules.get i
  if r.target = ch ∧ s.satisfied r then
    match best with
    | none => some i
    | some j => if (s.tables.rules.get j).priority < r.priority then some i else best
  else best

/-- The deciding rule of a channel (R102). -/
def Part.deciding (s : Part) (ch : Fin 25) : Option (Fin 32) :=
  (List.finRange 32).foldl (s.better ch) none

/-- The duty of DIM results (R99). -/
def Part.dimmerDuty (s : Part) : Nat :=
  match s.tables.dimmer with
  | none => 100
  | some i => 25 * ((s.input i).value + 1)

/-- The demand an action gives (R102). -/
def Part.actionDemand (s : Part) : Action → Demand
  | .steady => .steady
  | .flash => .flash
  | .telltale => .telltale
  | .dim => .dim s.dimmerDuty

/-- The result of a channel (R102). -/
def Part.resultOf (s : Part) (ch : Fin 25) : LampResult :=
  if lampType ch then
    match s.deciding ch with
    | none => { demand := .none, rule := none }
    | some i => { demand := s.actionDemand (s.tables.rules.get i).action, rule := some i }
  else { demand := .none, rule := none }

/-- Every result afresh (R103). -/
def Part.results (s : Part) : Vector LampResult 25 := tab s.resultOf

/-! ### Handing of the changes -/

/-- A demand held by lamp logic as the channel's result. -/
def Part.resultDemand (s : Part) (ch : Fin 25) : Demand := (s.lamps.results.get ch).demand

/-- The channels whose demand differs from their result: those to NONE first (R104). -/
def Part.changedChans (s : Part) : List (Fin 25) :=
  let changed := lampChans.filter fun ch => s.resultDemand ch != (s.chan ch).demand
  changed.filter (fun ch => s.resultDemand ch == .none) ++ changed.filter (fun ch => s.resultDemand ch != .none)

/-- One change handed to the channel manager. -/
def handDemand (s : Part) (ch : Fin 25) : Part := setDemand ch (s.resultDemand ch) s

/-- The flasher stopped (R112). -/
def idleFlasher (s : Part) : Part :=
  let s1 := s.setFlasher Flasher.idle
  { s1 with channels := { s1.channels with flashSample := none } }

/-- A channel holds a FLASH or TELLTALE demand. -/
def Part.flashDemand (s : Part) : Bool := lampChans.any fun ch => (s.chan ch).demand.flashing

/-- The flasher goes IDLE when no channel holds a flashing demand (R112). -/
def flasherRest (s : Part) : Part :=
  if s.flashDemand ∨ s.lamps.flasher.state = .idle then s else idleFlasher s

/-- The demands follow the results in RUNNING and STANDING (R104, R105). -/
def handResults (s : Part) : Part :=
  if s.mode = .running ∨ s.mode = .standing then flasherRest (s.changedChans.foldl handDemand s) else s

/-- Some result is other than NONE (R106). -/
def Part.anyResult (s : Part) : Bool := lampChans.any fun ch => s.resultDemand ch != .none

/-- An evaluation, up to the lamp demand flag and the power manager's reaction to its rise (R103 to R106). -/
def evaluateRules (s : Part) : Part :=
  if s.mode = .held then s
  else
    let s1 := handResults { s with lamps := { s.lamps with results := s.results } }
    { s1 with lamps := { s1.lamps with demandFlag := s1.anyResult } }

/-- The entry to HELD (R105, R112). -/
def lampsHeld (s : Part) : Part := { s with lamps := Lamps.dark }

end Sys2Proof.Machine
end

