-- ==== Sys2Proof/Machine/Fan.lean ====
section
/-! DEFINITION. The fan controller (07): target, ramp, changes of target, stall, overload and latch. -/

namespace Sys2Proof.Machine

/-! ### Ramp -/

/-- The claim a fan sizes now toward a target (R122), with the grant it holds. -/
def Part.fanClaim (s : Part) (target : Nat) : Option Nat :=
  sizeClaim s.tables.fan s.decomposed s.fan.duty target (s.grant fanChan)

/-- The next duty N of the fan toward its target (R122). -/
def Part.fanNext (s : Part) (target : Nat) : Nat := nextDuty s.tables.fan.rampStep s.fan.duty target

/-- A ramp step (R123). -/
def fanStep (s : Part) : Part :=
  let n := s.fanNext s.fan.target
  match s.fanClaim s.fan.target with
  | none => s.setFan (s.fan.atDuty n)
  | some a => makeClaim fanChan a (s.setFan { s.fan with ramp := none, nextDuty := n })

/-! ### Changes of target (R124) -/

/-- The entry to STOPPED: grant released, claim withdrawn, then the granting pass. -/
def stopFan (s : Part) : Part :=
  passAfter s (fanStopped (s.setArbiter (s.arbiter.vacate fanChan)))

/-- A target at or below the duty of a fan that runs: the grant above its need released, a waiting piece
withdrawn, RUNNING. -/
def cutFan (target : Nat) (s : Part) : Part :=
  let a := (s.arbiter.unclaim fanChan).lower fanChan (need s.tables.fan.nominal target)
  let f := { s.fan with target := target }
  let f := if target = f.duty then { f with state := FanState.running, ramp := none } else f.atDuty target
  passAfter s ((s.setArbiter a).setFan f)

/-- A target above the duty of a RAMPING fan: the grant above the target's need released, a waiting piece replaced
in place; where no claim is needed any more the piece is withdrawn and the next duty taken (entry 21). The claim is
sized with the ramp step of the tables, one just written included: the model's choice (entry 49). -/
def raiseFan (target : Nat) (s : Part) : Part :=
  let s1 := (s.setArbiter (s.arbiter.lower fanChan (need s.tables.fan.nominal target))).setFan
    { s.fan with target := target }
  if s.arbiter.waits fanChan then
    match s1.fanClaim target with
    | some a =>
      grantPass ((s1.setArbiter (s1.arbiter.reprice fanChan a)).setFan
        { s1.fan with nextDuty := s1.fanNext target })
    | none =>
      passAfter s ((s1.setArbiter (s1.arbiter.unclaim fanChan)).setFan (s1.fan.atDuty (s1.fanNext target)))
  else passAfter s s1

/-- A waiting claim that pays for the first step replaced by the first claim for a new target, sized with the ramp
step of the tables, one just written included: the model's choice (entry 49). -/
def reclaimFan (target : Nat) (s : Part) : Part :=
  makeClaim fanChan (s.firstClaim target)
    (s.setFan { s.fan with target := target, nextDuty := nextDuty s.tables.fan.rampStep 0 target })

/-- A new target acts by Table 3 (R124); a fan that leaves RUNNING loses its stall count (R126). -/
def setTarget (target : Nat) (s : Part) : Part :=
  if target = s.fan.target then s
  else match s.fan.state with
    | .stopped => fanStep (s.setFan { s.fan with target := target, state := .waiting })
    | .waiting => if target = 0 then stopFan s else reclaimFan target s
    | .ramping =>
      if target = 0 then stopFan s
      else if target ≤ s.fan.duty then cutFan target s
      else raiseFan target s
    | .running =>
      if target = 0 then stopFan s
      else if target ≤ s.fan.duty then cutFan target s
      else fanStep (s.setFan { s.fan with target := target, state := .ramping, stallCount := 0 })
    | .stallWait => if target = 0 then stopFan s else s.setFan { s.fan with target := target }
    | .latched => s.setFan { s.fan with target := target }

/-! ### Selection (R120) -/

/-- The switch position (R120). -/
def Part.fanPosition (s : Part) : Nat :=
  let i := s.input s.tables.fan.input
  if i.fresh then i.value
  else match s.tables.fan.stale with
    | .hold => i.value
    | .off => 0

/-- The ignition states a permission allows (R120). -/
def permits (p : FanPermission) (i : Ignition) : Bool :=
  match p, i with
  | .run, .run | .run, .crank | .accRun, .acc | .accRun, .run | .accRun, .crank => true
  | .run, .off | .run, .acc | .accRun, .off => false

/-- The duty of a speed (R120). -/
def FanCfg.speed (c : FanCfg) : Nat → Nat
  | 1 => c.duty1
  | 2 => c.duty2
  | 3 => c.duty3
  | _ => 0

/-- The fan is permitted (R120). -/
def Part.fanPermitted (s : Part) : Bool :=
  s.mode == .running && permits s.tables.fan.permission s.ignition

/-- The target selected (R120). -/
def Part.fanTarget (s : Part) : Nat :=
  if s.fanPermitted ∧ 0 < s.tables.fan.nominal then FanCfg.speed s.tables.fan s.fanPosition else 0

/-- The target selected again; a LATCHED fan leaves its latch at position 0 or ignition OFF (R120, R129). No
selection is made while HELD. -/
def selectFan (s : Part) : Part :=
  if s.mode = .held then s
  else if s.fan.state = .latched ∧ (s.fanPosition = 0 ∨ s.ignition = .off) then fanStopped s
  else setTarget s.fanTarget s

/-! ### Stall and overload -/

/-- The stall of a RUNNING fan (R126). -/
def stallFan (s : Part) : Part :=
  passAfter s ((s.setArbiter (s.arbiter.vacate fanChan)).setFan
    { s.fan with state := .stallWait, duty := 0, ramp := none, overload := none, stallCount := 0,
                 stallWait := some 5000 })

/-- The measured current of channel 12 (04: R66). -/
def measureFan (current : Nat) (s : Part) : Part :=
  s.setChan fanChan { s.chan fanChan with measured := current }

/-- A sample of the fan (R126). -/
def sampleFan (current : Nat) (s : Part) : Part :=
  let s1 := measureFan current s
  if s.fan.state = .running then
    if current < s.tables.fan.stallThreshold then
      if 20 ≤ s.fan.stallCount then stallFan s1
      else s1.setFan { s.fan with stallCount := s.fan.stallCount + 1 }
    else s1.setFan { s.fan with stallCount := 0 }
  else s1

/-- The overload of a driven fan: it latches (R128). -/
def overloadFan (s : Part) : Part :=
  passAfter s ((s.setArbiter (s.arbiter.vacate fanChan)).setFan
    { s.fan with state := .latched, duty := 0, ramp := none, overload := none, stallCount := 0,
                 latchCause := .overload })

/-- The end of a stall wait (R127). -/
def endStallWait (s : Part) : Part :=
  if s.fan.retry < 3 then
    fanStep (s.setFan { s.fan with state := .waiting, stallWait := none, retry := s.fan.retry + 1 })
  else s.setFan { s.fan with state := .latched, stallWait := none, latchCause := .stall }

end Sys2Proof.Machine
end

