-- ==== Sys2Proof/Machine/Gauges.lean ====
section
/-! DEFINITION. The gauge unit (08): start test, samples, tick and drive, sender loss, parking. -/

namespace Sys2Proof.Machine

/-! ### Start (R135) -/

/-- The sender of a gauge is at hand: its source is SUPPLY, or its sender is available (R135). -/
def Part.senderAtHand (s : Part) (g : Fin 4) : Bool :=
  (s.gaugeCfg g).source == .supply || s.available (s.gaugeCfg g).node

/-- The start conditions (R135). -/
def Part.mayStart (s : Part) (g : Fin 4) : Bool :=
  s.mode == .running && 0 < (s.gaugeCfg g).nominal && s.senderAtHand g

/-- The start test of a PARKED gauge (R135). -/
def startTest (s : Part) (g : Fin 4) : Part :=
  if (s.gauge g).state = .parked ∧ s.mayStart g then
    makeClaim (gaugeChan g) (s.gaugeCfg g).nominal (s.setGauge g { s.gauge g with state := .settling })
  else s

/-- The start test of every gauge. -/
def startTests (s : Part) : Part := allGauges.foldl startTest s

/-! ### Samples (R137 to R140) -/

/-- A slip (R140), but for its condition. -/
def Gauge.slipped (r : Gauge) (k : SlipKind) : Gauge :=
  { r with slip := !r.slip, lastSlip := k, slipCount := if r.slipCount < 255 then r.slipCount + 1 else r.slipCount }

/-- A slip of a gauge with the condition GAUGE_SLIP (R140). -/
def slipGauge (g : Fin 4) (k : SlipKind) (s : Part) : Part :=
  setCond .gaugeSlip true (s.setGauge g ((s.gauge g).slipped k))

/-- A sample arrives at a gauge in TRACKING or REPEATING (R138). -/
def takeSample (g : Fin 4) (x : Sample) (s : Part) : Part :=
  let r := s.gauge g
  if r.store.length < 8 then s.setGauge g { r with store := r.store ++ [x] }
  else
    let s1 := slipGauge g .drop s
    s1.setGauge g { s1.gauge g with store := r.store.drop (r.store.length - 4) ++ [x] }

/-- A slot of a sender report (R137): none for a value that is neither a reading nor an open sender. -/
def slotSample (high low : Byte) : Option Sample :=
  let v := high.toNat * 256 + low.toNat
  if v ≤ 1023 then some (.reading v) else if v = 65535 then some .open_ else none

/-- The report of one gauge's slot (R137). -/
def reportGauge (source : Nat) (payload : List Byte) (s : Part) (g : Fin 4) : Part :=
  let c := s.gaugeCfg g
  if c.source = .sender ∧ c.node = source ∧ 2 * c.slot + 1 < payload.length
      ∧ ((s.gauge g).state = .tracking ∨ (s.gauge g).state = .repeating) then
    match slotSample (payload.getD (2 * c.slot) 0) (payload.getD (2 * c.slot + 1) 0) with
    | some x => takeSample g x s
    | none => s
  else s

/-- A SENDER_REPORT frame at the gauge unit (R137). -/
def reportGauges (source : Nat) (payload : List Byte) (s : Part) : Part :=
  if payload.length = 0 ∨ payload.length % 2 = 1 ∨ 16 < payload.length then s
  else allGauges.foldl (reportGauge source payload) s

/-! ### Drive (R133, R141 to R143) -/

/-- Nearest whole figure of a quotient, a half rounded up. -/
def roundHalfUp (num den : Nat) : Nat := (2 * num + den) / (2 * den)

/-- The drive between two points of a curve (R133). -/
def between (a b : CurvePoint) (r : Nat) : Nat :=
  let den := b.reading - a.reading
  let x := r - a.reading
  roundHalfUp (a.drive * (den - x) + b.drive * x) den

/-- The drive along the points that follow a point at or below the reading (R133). -/
def alongCurve (r : Nat) (p : CurvePoint) : List CurvePoint → Nat
  | [] => p.drive
  | q :: qs => if q.reading ≤ r then alongCurve r q qs else between p q r

/-- The curve drive of a reading on a curve given by its points in order (R133). -/
def curveDrive (r : Nat) : List CurvePoint → Nat
  | [] => 0
  | p :: ps => if r ≤ p.reading then p.drive else alongCurve r p ps

/-- The points of a curve (R132). -/
def Part.curvePoints (s : Part) (c : Fin 4) : List CurvePoint :=
  (List.finRange 8).map fun p => s.tables.curves.get ⟨8 * c.val + p.val, by omega⟩

/-- The drive moves toward the curve drive by the damping figure at most (R141). -/
def damp (drive goal damping : Nat) : Nat :=
  if drive ≤ goal then drive + min damping (goal - drive) else drive - min damping (drive - goal)

/-- A tick's curve drive taken, and the drive moved toward it (R141). -/
def Gauge.toward (r : Gauge) (c : GaugeCfg) (goal : Nat) : Gauge :=
  { r with curveDrive := goal, drive := damp r.drive goal c.damping }

/-- The reading of a SUPPLY gauge: the filtered supply in 0.02 V units, at most 1023 (R141; entry 13). -/
def supplyReading (supply : Nat) : Nat :=
  min 1023 (supply / 2 + if supply % 2 = 1 ∧ Config.supplyReadingUp supply then 1 else 0)

/-- The output duty of a THERMAL gauge, in 0.1 % (R142; entry 13). -/
def thermalDuty (drive supply : Nat) : Nat :=
  min 1000
    (if supply = 0 then Config.thermalDutyNoSupply drive
     else
       let num := drive * 1000
       if 2 * (num % supply) < supply then num / supply
       else if 2 * (num % supply) = supply then
         num / supply + if Config.thermalHalfUp drive supply then 1 else 0
       else num / supply + 1)

/-- The output duty of a driven gauge (R142, R143). -/
def Part.gaugeDuty (s : Part) (g : Fin 4) : Nat :=
  match (s.gaugeCfg g).type with
  | .thermal => thermalDuty (s.gauge g).drive s.supply
  | .coil => (s.gauge g).drive

/-- The sample used at a tick acts on the drive (R141). -/
def useSample (g : Fin 4) (s : Part) : Part :=
  let c := s.gaugeCfg g
  let r := s.gauge g
  match r.last with
  | none => s
  | some (.reading v) => s.setGauge g (r.toward c (curveDrive v (s.curvePoints c.curve)))
  | some .open_ =>
    match c.open_ with
    | .park => s.setGauge g (r.toward c (GaugeCfg.rest c))
    | .hold => s

/-- The oldest sample becomes the last sample, in TRACKING (R139). -/
def Gauge.advance (r : Gauge) : Gauge :=
  match r.store with
  | [] => r
  | x :: xs => { r with store := xs, last := some x, state := .tracking }

/-- The gauge takes its sample for the tick (R139). -/
def tickSample (g : Fin 4) (s : Part) : Part :=
  let r := s.gauge g
  if r.state = .tracking then
    if r.store = [] then
      let s1 := slipGauge g .repeat_ s
      s1.setGauge g { s1.gauge g with state := .repeating }
    else s.setGauge g r.advance
  else if 3 ≤ r.store.length then s.setGauge g r.advance
  else s

/-- The figure of a park ramp after so many of its 15 ticks (R145). No quotient by 15 is a half. -/
def rampFigure (start park taken : Nat) : Nat :=
  if start ≤ park then start + roundHalfUp ((park - start) * taken) 15
  else start - roundHalfUp ((start - park) * taken) 15

/-- The next figure of the park ramp (R145). -/
def Gauge.rampTick (r : Gauge) (c : GaugeCfg) : Gauge :=
  { r with rampLeft := r.rampLeft - 1, drive := rampFigure r.rampStart c.parkDrive (15 - (r.rampLeft - 1)) }

/-- A tick takes the entry's park drive and lost behaviour into use; an undriven drive stands at the rest drive they
give (R131, R134; entry 22). -/
def Gauge.takeFigures (r : Gauge) (c : GaugeCfg) : Gauge :=
  { r with parkDrive := c.parkDrive, lost := c.lost, drive := if r.state.driven then r.drive else GaugeCfg.rest c }

/-- The tick at one gauge by its state (R141). -/
def actGauge (g : Fin 4) (s : Part) : Part :=
  let c := s.gaugeCfg g
  match (s.gauge g).state with
  | .parked | .settling | .lost => s
  | .parking => s.setGauge g ((s.gauge g).rampTick c)
  | .tracking | .repeating =>
    match c.source with
    | .sender => useSample g (tickSample g s)
    | .supply => s.setGauge g ((s.gauge g).toward c (curveDrive (supplyReading s.supply) (s.curvePoints c.curve)))

/-- The tick at one gauge, with the figures its entry has now (R131, R141). -/
def tickGauge (s : Part) (g : Fin 4) : Part := actGauge g (s.setGauge g ((s.gauge g).takeFigures (s.gaugeCfg g)))

/-- The output of a driven gauge at the end of a tick (R141). -/
def driveOutput (s : Part) (g : Fin 4) : Part :=
  if (s.gauge g).state.driven then s.setGauge g { s.gauge g with output := s.gaugeDuty g } else s

/-- The ramp of a PARKING gauge is over. -/
def Part.rampOver (s : Part) (g : Fin 4) : Bool := (s.gauge g).state == .parking && (s.gauge g).rampLeft == 0

/-- The end of a park ramp: PARKED, grant released, start test (R145, R135). -/
def endRamp (s : Part) (g : Fin 4) : Part :=
  if s.rampOver g then
    startTest (passAfter s ((undrive g .parked s).setArbiter (s.arbiter.vacate (gaugeChan g)))) g
  else s

/-- A gauge tick (R141). -/
def tickGauges (s : Part) : Part :=
  allGauges.foldl endRamp (allGauges.foldl driveOutput (allGauges.foldl tickGauge s))

/-! ### Parking (R145) -/

/-- The entry to PARKING: the ramp starts at the present drive with 15 ticks left (R145). The last sample becomes none
here, at ignition OFF by the model's choice (entry 61). -/
def Gauge.park (r : Gauge) : Gauge := { r.emptied with state := .parking, rampStart := r.drive, rampLeft := 15 }

/-- A gauge goes to PARKED, withdrawing its claim or releasing its grant; the arbiter runs its pass later. -/
def parkNow (g : Fin 4) (s : Part) : Part :=
  (undrive g .parked s).setArbiter (s.arbiter.vacate (gaugeChan g))

/-- The lost mark of a gauge written. -/
def markLost (g : Fin 4) (b : Bool) (s : Part) : Part := s.setGauge g { s.gauge g with lostMark := b }

/-! ### Sender loss and return (R144) -/

/-- The loss of its sender at a gauge, by the lost behaviour in use (R131). -/
def loseSender (s : Part) (g : Fin 4) : Part :=
  let c := s.gaugeCfg g
  let r := s.gauge g
  match r.state with
  | .tracking | .repeating =>
    match r.lost with
    | .hold => s.setGauge g { r.emptied with state := .lost, lostMark := true }
    | .park =>
      match c.type with
      | .coil => s.setGauge g { r.park with lostMark := true }
      | .thermal => markLost g true (parkNow g s)
  | .settling => markLost g true (parkNow g s)
  | .lost => markLost g true s
  | .parked | .parking => s

/-- A SENDER gauge whose sender is absent. -/
def Part.senderGone (s : Part) (g : Fin 4) : Bool := !s.senderAtHand g

/-- The return of its sender at a gauge, or its first coming. -/
def regainSender (s : Part) (g : Fin 4) : Part :=
  let r := s.gauge g
  match r.state with
  | .lost => s.setGauge g { r.entered (s.gaugeCfg g) with lostMark := false }
  | .parking =>
    if r.lostMark then s.setGauge g { r.entered (s.gaugeCfg g) with lostMark := false } else s
  | .parked => startTest (markLost g false s) g
  | .settling | .tracking | .repeating => s

/-- Every gauge follows its sender's availability (R144, R135): those whose sender is absent first, with one
granting pass, then the others. -/
def followSenders (s : Part) : Part :=
  let gone := allGauges.filter s.senderGone
  let back := allGauges.filter fun g => (s.gaugeCfg g).source == .sender && s.senderAtHand g
  back.foldl regainSender (passAfter s (gone.foldl loseSender s))

/-! ### Changes of mode and ignition -/

/-- The ignition has become OFF (R145). -/
def parkForIgnition (s : Part) (g : Fin 4) : Part :=
  let r := s.gauge g
  markLost g false
    (match r.state with
     | .tracking | .repeating | .lost =>
       match (s.gaugeCfg g).type with
       | .coil => s.setGauge g r.park
       | .thermal => parkNow g s
     | .parking =>
       match (s.gaugeCfg g).type with
       | .coil => s
       | .thermal => parkNow g s
     | .settling => parkNow g s
     | .parked => s)

/-- The mode has come back to RUNNING at a gauge (R145, R135). -/
def resumeGauge (s : Part) (g : Fin 4) : Part :=
  let r := s.gauge g
  match r.state with
  | .parking =>
    if s.senderAtHand g then s.setGauge g { r.entered (s.gaugeCfg g) with lostMark := false }
    else match r.lost with
      | .hold => s.setGauge g { r.emptied with state := .lost, lostMark := true, rampLeft := 0 }
      | .park => markLost g true s
  | .parked => startTest s g
  | .settling | .tracking | .repeating | .lost => s

/-- A change of mode at the gauge unit: the return to RUNNING, or parking once the mode is no longer RUNNING (R135,
R145). -/
def gaugesFollowMode (s : Part) : Part :=
  if s.mode = .running then allGauges.foldl resumeGauge s
  else passAfter s (allGauges.foldl parkForIgnition s)

/-- The settled flag has been set (R136). -/
def gaugesSettled (s : Part) : Part := allGauges.foldl (fun t g => leaveSettling g t) s

/-- The values a gauge takes at HOLD (R148); the slip record is kept. -/
def Gauge.held (r : Gauge) (rest : Nat) : Gauge :=
  { r.undriven .parked rest with curveDrive := rest, lostMark := false, rampStart := 0 }

/-- HOLD at the gauge unit (R148). -/
def gaugesHeld (s : Part) : Part :=
  { s with gauges := tab fun g => (s.gauge g).held (s.restOf g) }

/-- The gauges at power-on and at RELEASE, before the start test (R148). -/
def gaugesFresh (s : Part) : Part :=
  { s with gauges := tab fun g => Gauge.parkedAt (s.gaugeCfg g) }

end Sys2Proof.Machine
end

