-- ==== Sys2Proof/Machine/Operands.lean ====
section
/-! DEFINITION. The layouts of chapter 11: bytes of figures, payloads of frames, and the entries of the writable
tables, encoded and decoded. -/

namespace Sys2Proof.Machine

/-! ### Figures as bytes: high byte first -/

/-- A figure in one byte. -/
def byte (n : Nat) : Byte := BitVec.ofNat 8 n

/-- A figure in two bytes. -/
def bytes2 (n : Nat) : List Byte := [byte (n / 256), byte n]

/-- A figure in three bytes. -/
def bytes3 (n : Nat) : List Byte := [byte (n / 65536), byte (n / 256), byte n]

/-- Two figures of 12 bits in three bytes, the first in the high bits. -/
def pack12 (a b : Nat) : List Byte := bytes3 (a * 4096 + b)

/-- A flag: 1 for yes or set. -/
def flag (b : Bool) : Byte := if b then 1 else 0

/-- Bits of a byte, from bit 0. -/
def bits (bs : List Bool) : Nat := bs.foldr (fun b n => 2 * n + if b then 1 else 0) 0

/-- A set of 16 conditions in two bytes (11.2). -/
def setBytes (v : BitVec 16) : List Byte := bytes2 v.toNat

/-- The byte at an offset, as a figure. -/
def at1 (bs : List Byte) (i : Nat) : Nat := (bs.getD i 0).toNat

/-- The two-byte figure at an offset. -/
def at2 (bs : List Byte) (i : Nat) : Nat := 256 * at1 bs i + at1 bs (i + 1)

/-- The first 12-bit figure of three bytes at an offset. -/
def high12 (bs : List Byte) (i : Nat) : Nat := 16 * at1 bs i + at1 bs (i + 1) / 16

/-- The second 12-bit figure of three bytes at an offset. -/
def low12 (bs : List Byte) (i : Nat) : Nat := 256 * (at1 bs (i + 1) % 16) + at1 bs (i + 2)

/-- A flag decoded; none for a value other than 0 and 1 (R183). -/
def unflag (n : Nat) : Option Bool := if n = 0 then some false else if n = 1 then some true else none

/-- A whole number below a bound as an index. -/
def index? (bound n : Nat) : Option (Fin bound) := if h : n < bound then some ⟨n, h⟩ else none

/-- A condition of a check: none when it fails. -/
def only (b : Bool) : Option Unit := if b then some () else none

/-! ### Kinds, ops and statuses -/

/-- Kind codes (11: Table 2). -/
def kindSwitchState : Nat := 0x11
/-- Kind code. -/
def kindSenderReport : Nat := 0x21
/-- Kind code. -/
def kindLampCommand : Nat := 0x31
/-- Kind code. -/
def kindLampStatus : Nat := 0x32
/-- Kind code. -/
def kindMgRequest : Nat := 0x51
/-- Kind code. -/
def kindMgReply : Nat := 0x52
/-- Kind code. -/
def kindNotice : Nat := 0x53

/-- Reply statuses (11: Table 6). -/
inductive Status where
  | done
  | busy
  | refused
  | notAllowed
  | badTable
  | badIndex
  | badLength
  | failed
  | unknownOp
  deriving DecidableEq, Repr

/-- Code of a status (11: Table 6). -/
def Status.code : Status → Nat
  | .done => 0
  | .busy => 1
  | .refused => 2
  | .notAllowed => 3
  | .badTable => 4
  | .badIndex => 5
  | .badLength => 6
  | .failed => 7
  | .unknownOp => 8

/-- An answer of the management unit, before it is a reply. -/
structure Answer where
  status : Status
  table : Nat
  index : Nat
  data : List Byte
  deriving DecidableEq, Repr

/-- The payload of an MG_REPLY (R182): status in the high four bits, the low four bits of the op below. -/
def replyPayload (op : Nat) (a : Answer) : List Byte :=
  [byte (16 * a.status.code + op % 16), byte a.table, byte a.index] ++ a.data

/-- Mode codes (11: Table 9). -/
def modeCode : Mode → Nat
  | .running => 0
  | .standing => 1
  | .dormant => 2
  | .quiet => 3
  | .held => 4

/-- Ignition codes (11: Table 9). -/
def ignitionCode : Ignition → Nat
  | .off => 0
  | .acc => 1
  | .run => 2
  | .crank => 3

/-- Kind of an originated frame (11: Table 2). -/
def OwnBody.kind : OwnBody → Nat
  | .lampCommand _ _ _ => kindLampCommand
  | .notice => kindNotice
  | .reply _ => kindMgReply

/-- The payload of an originated frame at the START of its transmission (11: Table 3; R182). -/
def Part.ownPayload (s : Part) : OwnBody → List Byte
  | .lampCommand lit dim duty => [lit, dim, byte duty]
  | .notice =>
    setBytes s.mgmt.active ++ setBytes s.mgmt.changed ++ [byte (modeCode s.mode), byte (ignitionCode s.ignition)]
  | .reply payload => payload

/-- The header of an originated frame (R40): route 0. -/
def OwnEntry.header (e : OwnEntry) : List Byte := [byte e.dest, 0, byte e.source, byte e.body.kind]

/-! ### Codes of coded fields -/

/-- Relay mode bit. -/
def relayCode : RelayMode → Nat
  | .store => 0
  | .cut => 1
/-- Lock code. -/
def lockCode : CheckLock → Nat
  | .auto => 0
  | .fixed16 => 1
  | .fixed8 => 2
/-- Lock of a code. -/
def lockOf : Nat → Option CheckLock
  | 0 => some .auto
  | 1 => some .fixed16
  | 2 => some .fixed8
  | _ => none
/-- Role code (11: Table 9; 0 is LEARN in NODE_PINS). -/
def roleCode : Role → Nat
  | .none => 0
  | .switchReader => 1
  | .sender => 2
  | .lampNode => 3
  | .service => 4
  | .other => 5
/-- Role of a code. -/
def roleOf : Nat → Option Role
  | 0 => some .none
  | 1 => some .switchReader
  | 2 => some .sender
  | 3 => some .lampNode
  | 4 => some .service
  | 5 => some .other
  | _ => none
/-- Port code, 0 for none. -/
def portCode : Option Port → Nat
  | none => 0
  | some .front => 1
  | some .rear => 2
/-- Port of a code. -/
def portOf : Nat → Option (Option Port)
  | 0 => some none
  | 1 => some (some .front)
  | 2 => some (some .rear)
  | _ => none
/-- Class code (11: Table 9). -/
def classCode : Class → Nat
  | .comfort => 0
  | .safety => 1
  | .gauge => 2
/-- Class of a code. -/
def classOf? : Nat → Option Class
  | 0 => some .comfort
  | 1 => some .safety
  | 2 => some .gauge
  | _ => none
/-- Compare code. -/
def compareCode : Compare → Nat
  | .eq => 0
  | .ne => 1
  | .ge => 2
/-- Compare of a code. -/
def compareOf : Nat → Option Compare
  | 0 => some .eq
  | 1 => some .ne
  | 2 => some .ge
  | _ => none
/-- Action code. -/
def actionCode : Action → Nat
  | .steady => 0
  | .flash => 1
  | .telltale => 2
  | .dim => 3
/-- Action of a code. -/
def actionOf : Nat → Option Action
  | 0 => some .steady
  | 1 => some .flash
  | 2 => some .telltale
  | 3 => some .dim
  | _ => none
/-- Stale code of a rule. -/
def staleCode : RuleStale → Nat
  | .hold => 0
  | .forceOn => 1
  | .forceOff => 2
/-- Stale behaviour of a code. -/
def staleOf : Nat → Option RuleStale
  | 0 => some .hold
  | 1 => some .forceOn
  | 2 => some .forceOff
  | _ => none
/-- An input index, 255 for NONE. -/
def inputCode : Option (Fin 32) → Nat
  | none => 255
  | some i => i.val
/-- The input of a byte: 0-31, or NONE at 255; none for any other byte (R183; R98, R99). -/
def inputOf (n : Nat) : Option (Option (Fin 32)) :=
  if n = 255 then some none else (index? 32 n).map some

/-! ### Writable entries (11: Table 7)

`encode…` gives the bytes an entry reads as, `decode…` the entry that bytes spell: none when a coded field, a flag
or a reserved bit is not one of its values (R183) or a field is an index that names nothing. -/

/-- LINK, with the working node number. -/
def encodeLink (node : Nat) (c : LinkCfg) : List Byte :=
  [byte node, byte c.service] ++ setBytes c.noticeMask ++
  [byte (relayCode c.relayFront + 2 * relayCode c.relayRear), byte (lockCode c.lockFront + 4 * lockCode c.lockRear)]

/-- LINK decoded; its node number is checked apart (R169). -/
def decodeLink (bs : List Byte) : Option LinkCfg := do
  only (at1 bs 4 < 4 && at1 bs 5 < 16)
  let front ← lockOf (at1 bs 5 % 4)
  let rear ← lockOf (at1 bs 5 / 4)
  some { service := at1 bs 1
         noticeMask := BitVec.ofNat 16 (at2 bs 2)
         relayFront := if at1 bs 4 % 2 = 1 then .cut else .store
         relayRear := if at1 bs 4 / 2 = 1 then .cut else .store
         lockFront := front
         lockRear := rear }

/-- NODE_PINS. -/
def encodePin (c : PinCfg) : List Byte := [byte c.node, byte (roleCode c.role), byte (portCode c.expected)]

/-- NODE_PINS decoded. -/
def decodePin (bs : List Byte) : Option PinCfg := do
  let role ← roleOf (at1 bs 1)
  let expected ← portOf (at1 bs 2)
  some { node := at1 bs 0, role := role, expected := expected }

/-- SWITCH_MAP. -/
def encodeMap (c : MapCfg) : List Byte :=
  [byte c.source, byte c.slot, byte c.input.val, byte c.debounce, byte c.limit]

/-- SWITCH_MAP decoded. -/
def decodeMap (bs : List Byte) : Option MapCfg := do
  let input ← index? 32 (at1 bs 2)
  some { source := at1 bs 0, slot := at1 bs 1, input := input, debounce := at1 bs 3, limit := at1 bs 4 }

/-- CHANNELS, with the class and nominal current the channel reads. -/
def encodeChan (cls : Class) (nominal node output : Nat) : List Byte :=
  [byte (classCode cls)] ++ bytes2 nominal ++ [byte node, byte output]

/-- CHANNELS decoded. -/
def decodeChan (bs : List Byte) : Option ChanCfg := do
  let cls ← classOf? (at1 bs 0)
  some { cls := cls, nominal := at2 bs 1, node := at1 bs 3, output := at1 bs 4 }

/-- LAMP_RULES. -/
def encodeRule (c : RuleCfg) : List Byte :=
  [flag c.enabled, byte c.inputA.val, byte (compareCode c.compare), byte c.valueA, byte (inputCode c.inputB),
   byte c.valueB, byte c.mask.toNat, byte c.target.val, byte (actionCode c.action), byte c.priority,
   byte (staleCode c.stale)]

/-- LAMP_RULES decoded. -/
def decodeRule (bs : List Byte) : Option RuleCfg := do
  let enabled ← unflag (at1 bs 0)
  let inputA ← index? 32 (at1 bs 1)
  let compare ← compareOf (at1 bs 2)
  let inputB ← inputOf (at1 bs 4)
  only (at1 bs 6 < 16)
  let target ← index? 25 (at1 bs 7)
  let action ← actionOf (at1 bs 8)
  let stale ← staleOf (at1 bs 10)
  some { enabled := enabled, inputA := inputA, compare := compare, valueA := at1 bs 3, inputB := inputB,
         valueB := at1 bs 5, mask := BitVec.ofNat 4 (at1 bs 6), target := target, action := action,
         priority := at1 bs 9, stale := stale }

/-- FAN. -/
def encodeFan (c : FanCfg) : List Byte :=
  [byte c.input.val, byte c.duty1, byte c.duty2, byte c.duty3, byte c.rampStep, byte c.grain, byte c.nominal,
   byte c.stallThreshold, byte (match c.permission with | .run => 0 | .accRun => 1),
   byte (match c.stale with | .hold => 0 | .off => 1)]

/-- FAN decoded. -/
def decodeFan (bs : List Byte) : Option FanCfg := do
  let input ← index? 32 (at1 bs 0)
  let accRun ← unflag (at1 bs 8)
  let off ← unflag (at1 bs 9)
  some { input := input, duty1 := at1 bs 1, duty2 := at1 bs 2, duty3 := at1 bs 3, rampStep := at1 bs 4,
         grain := at1 bs 5, nominal := at1 bs 6, stallThreshold := at1 bs 7,
         permission := if accRun then .accRun else .run, stale := if off then .off else .hold }

/-- Code of a gauge behaviour. -/
def behaviourCode : GaugeBehaviour → Nat
  | .park => 0
  | .hold => 1

/-- GAUGES. -/
def encodeGauge (c : GaugeCfg) : List Byte :=
  [byte (match c.type with | .thermal => 0 | .coil => 1), byte (match c.source with | .sender => 0 | .supply => 1),
   byte c.node, byte c.slot, byte c.curve.val] ++ bytes2 c.damping ++ bytes2 c.parkDrive ++
  [byte (behaviourCode c.lost), byte (behaviourCode c.open_), byte c.nominal]

/-- GAUGES decoded. -/
def decodeGauge (bs : List Byte) : Option GaugeCfg := do
  let coil ← unflag (at1 bs 0)
  let supply ← unflag (at1 bs 1)
  let curve ← index? 4 (at1 bs 4)
  let lostHold ← unflag (at1 bs 9)
  let openHold ← unflag (at1 bs 10)
  some { type := if coil then .coil else .thermal, source := if supply then .supply else .sender,
         node := at1 bs 2, slot := at1 bs 3, curve := curve, damping := at2 bs 5, parkDrive := at2 bs 7,
         lost := if lostHold then .hold else .park, open_ := if openHold then .hold else .park,
         nominal := at1 bs 11 }

/-- CURVES. -/
def encodePoint (c : CurvePoint) : List Byte := bytes2 c.reading ++ bytes2 c.drive

/-- CURVES decoded. -/
def decodePoint (bs : List Byte) : CurvePoint := { reading := at2 bs 0, drive := at2 bs 2 }

/-- POWER. -/
def encodePower (c : PowerCfg) : List Byte :=
  pack12 c.capacity c.runChg ++ pack12 c.runDis c.acc ++ pack12 c.crank c.parked ++
  [byte c.idle, byte c.settling.val, byte (c.threshold - 1200)]

/-- POWER decoded. -/
def decodePower (bs : List Byte) : Option PowerCfg := do
  let settling ← index? 4 (at1 bs 10)
  some { capacity := high12 bs 0, runChg := low12 bs 0, runDis := high12 bs 3, acc := low12 bs 3,
         crank := high12 bs 6, parked := low12 bs 6, idle := at1 bs 9, settling := settling,
         threshold := 1200 + at1 bs 11 }

end Sys2Proof.Machine
end

