-- ==== Sys2Proof/Machine/ReadTables.lean ====
section
/-! DEFINITION. What a read of a table shows: the read-only entries of 11: Table 8, and the lengths, entry sizes
and entries of every table (10: Table 3). -/

namespace Sys2Proof.Machine

/-- A timer's time left, 0 while stopped. For the phase, ramp and stall wait timers the manual says so (06: R116; 07:
R121); for the retry, refresh and quiet timers it is the model's choice (entry 54). -/
def left (t : Option Nat) : Nat := t.getD 0

/-- Milliseconds shown in a coarser unit; a part of a unit is a free value (entry 12). -/
def coarse (unit ms : Nat) : Nat :=
  ms / unit + if ms % unit ≠ 0 ∧ Config.partUnitShowsUp (1000000 * unit + ms) then 1 else 0

/-! ### Codes (11: Table 9) -/

/-- Node state code. -/
def nodeStateCode : NodeState → Nat
  | .present => 0
  | .silent => 1
  | .lost => 2
/-- Port state code. -/
def linkStateCode : LinkState → Nat
  | .down => 0
  | .seeking => 1
  | .up => 2
/-- Check mode code. -/
def checkModeCode : CheckMode → Nat
  | .check16 => 0
  | .sum8 => 1
/-- Channel state code. -/
def chanStateCode : ChanState → Nat
  | .off => 0
  | .waiting => 1
  | .on => 2
  | .ramping => 3
  | .shed => 4
  | .fault => 5
  | .unreachable => 6
/-- Fault kind code. -/
def faultCode : FaultKind → Nat
  | .none => 0
  | .overload => 1
  | .short => 2
/-- Flasher state code. -/
def flasherCode : FlasherState → Nat
  | .idle => 0
  | .onPhase => 1
  | .offPhase => 2
/-- Flasher rate code. -/
def rateCode : FlashRate → Nat
  | .normal => 0
  | .fast => 1
/-- Fan state code. -/
def fanCode : FanState → Nat
  | .stopped => 0
  | .waiting => 1
  | .ramping => 2
  | .running => 3
  | .stallWait => 4
  | .latched => 5
/-- Latch cause code. -/
def latchCode : LatchCause → Nat
  | .none => 0
  | .stall => 1
  | .overload => 2
/-- Gauge state code. -/
def gaugeCode : GaugeState → Nat
  | .parked => 0
  | .settling => 1
  | .tracking => 2
  | .repeating => 3
  | .lost => 4
  | .parking => 5
/-- Slip code. -/
def slipCode : SlipKind → Nat
  | .none => 0
  | .drop => 1
  | .repeat_ => 2
/-- Last sample of a gauge. -/
def sampleCode : Option Sample → Nat
  | none => 0xFFFE
  | some .open_ => 0xFFFF
  | some (.reading r) => r
/-- Store state code. -/
def storeCode : StoreState → Nat
  | .valid => 0
  | .writing => 1
  | .invalid => 2
/-- Charging state code. -/
def chargingCode : Charging → Nat
  | .discharging => 0
  | .charging => 1
/-- Use of the interval timer. -/
def intervalCode : Interval → Nat
  | .none => 0
  | .settling _ => 1
  | .idle _ => 2
/-- Time left in the interval timer, in ms; with the use NONE it reads 0, the model's choice (entry 54). -/
def Interval.left : Interval → Nat
  | .none => 0
  | .settling n => n
  | .idle n => n

/-! ### Entries -/

/-- NODE_TABLE (02: R25). -/
def nodeBytes (e : NodeEntry) : List Byte :=
  [byte e.node, byte (portCode e.port), byte (roleCode e.role), byte (nodeStateCode e.state)] ++ bytes2 e.age ++
  [byte e.moves, byte (coarse 100 e.window), byte (bits [e.duplicate, e.pinned]), byte (coarse 100 e.quietTime),
   byte (portCode e.expected)]

/-- The source node of an input and the port of its node-table entry (03: Table 3). -/
def Part.inputSource (s : Part) (i : Fin 32) : Nat × Option Port :=
  match s.mapEntry i with
  | none => (0, none)
  | some m => (m.source, (s.node m.source).bind (·.port))

/-- INPUT_IMAGE (03: R48). -/
def inputBytes (s : Part) (i : Fin 32) : List Byte :=
  let x := s.input i
  [byte x.value, byte (s.inputSource i).1, byte (portCode (s.inputSource i).2), flag x.fresh,
   byte (x.candidate.getD 255), byte x.count, flag x.resync, byte x.overLimit, flag (s.mapEntry i).isSome]

/-- Demand and demand figure of a channel (11: Table 8; 04: R66). -/
def Part.demandFigure (s : Part) (ch : Fin 25) : Nat × Nat :=
  match kindOf ch with
  | .lamp | .remote =>
    match (s.chan ch).demand with
    | .none => (0, 0)
    | .steady => (1, 0)
    | .flash => (2, 0)
    | .telltale => (3, 0)
    | .dim d => (4, d)
  | .fan => if s.fan.target = 0 then (0, 0) else (5, s.fan.target)
  | .gauge g =>
    if (s.gauge g).state.driven ∧ 0 < (s.gauge g).drive then (6, (s.gauge g).drive) else (0, 0)

/-- CHANNEL_STATE, a channel (04: R62). -/
def chanBytes (s : Part) (ch : Fin 25) : List Byte :=
  let c := s.chan ch
  [byte (s.demandFigure ch).1] ++ bytes2 (s.demandFigure ch).2 ++ [byte (chanStateCode (s.chanState ch))] ++
  bytes2 (s.grant ch) ++ [byte (bits [s.lit ch, c.bulbOut, c.latched]), byte (faultCode c.fault), byte c.retry] ++
  bytes2 (left c.retryTimer) ++ [byte c.measured]

/-- CHANNEL_STATE, a lamp node (04: R74). While no status is held both status bytes read 0, the model's choice (entry
57). -/
def lampNodeBytes (r : LampNode) : List Byte :=
  [byte r.node, flag r.reachable, r.lit, r.dim, byte r.duty, byte (left r.refresh), (r.status.getD (0, 0)).1,
   (r.status.getD (0, 0)).2, flag r.status.isSome] ++ bytes2 r.supply

/-- An unused lamp-node record (R74; entry 40). -/
def LampNode.unused : LampNode :=
  { node := 0, reachable := false, lit := 0, dim := 0, duty := 100, refresh := none, status := none, supply := 0 }

/-- CHANNEL_STATE, lamp logic (06: R116). -/
def lampsBytes (l : Lamps) : List Byte :=
  [byte (flasherCode l.flasher.state), byte (rateCode l.flasher.rate)] ++ bytes2 (left l.flasher.timer) ++
  [flag l.flasher.faultSeen, flag l.demandFlag]

/-- CHANNEL_STATE, the fan (07: R121). -/
def fanBytes (f : Fan) : List Byte :=
  [byte (fanCode f.state), byte f.target, byte f.duty, flag f.shedMark, byte f.retry, byte (latchCode f.latchCause),
   byte (left f.ramp)] ++ bytes2 (left f.stallWait) ++ [byte f.stallCount]

/-- CHANNEL_STATE by index. -/
def chanStateBytes (s : Part) (i : Nat) : List Byte :=
  if h : i < 25 then chanBytes s ⟨i, h⟩
  else if i < 27 then lampNodeBytes (s.channels.lampNodes.getD (i - 25) LampNode.unused)
  else if i = 27 then lampsBytes s.lamps
  else fanBytes s.fan

/-- CLAIM_QUEUE, the summary (05: R86). -/
def summaryBytes (s : Part) : List Byte :=
  [byte s.arbiter.claims.length] ++ bytes2 s.arbiter.limit ++ bytes2 s.committed ++
  bytes2 s.tables.power.capacity ++ [byte (chargingCode s.power.charging), flag s.decomposed]

/-- CLAIM_QUEUE, a claim. -/
def claimBytes (c : Claim) : List Byte :=
  [byte c.chan.val] ++ bytes2 c.amount ++ [byte (classCode c.cls), flag c.shed]

/-- CLAIM_QUEUE by index. -/
def claimQueueBytes (s : Part) (i : Nat) : List Byte :=
  match i with
  | 0 => summaryBytes s
  | n + 1 => (s.arbiter.claims[n]?.map claimBytes).getD []

/-- GAUGE_STATE (08: R134). -/
def gaugeBytes (r : Gauge) : List Byte :=
  [byte (gaugeCode r.state)] ++ pack12 r.drive r.curveDrive ++ bytes2 r.output ++ bytes2 r.rampStart ++
  [byte (r.store.length + 16 * r.rampLeft)] ++ bytes2 (sampleCode r.last) ++
  [byte ((if r.slip then 1 else 0) + 2 * slipCode r.lastSlip + if r.lostMark then 8 else 0), byte r.slipCount]

/-- CONDITIONS, the condition entry (10: R176). -/
def conditionBytes (m : Mgmt) : List Byte := setBytes m.active ++ setBytes m.changed ++ [flag m.owed]

/-- CONDITIONS, the power entry (09: R154). -/
def powerBytes (s : Part) : List Byte :=
  let p := s.power
  [byte (modeCode p.mode), byte (ignitionCode s.ignition),
   byte (bits [p.acc.level, p.run.level, p.start.level, p.charging == .charging, p.settled, p.deferral])] ++
  bytes2 s.supply ++ [byte (intervalCode p.interval)] ++ bytes3 p.interval.left ++
  [byte (coarse 1000 (left p.quiet))]

/-- COUNTERS, a port (01: R18). -/
def counterBytes (c : Counters) : List Byte :=
  bytes2 c.fragments ++ bytes2 c.bad ++ bytes2 c.aborted ++ bytes2 c.refused ++ bytes2 c.relayDrops ++
  bytes2 c.unknownKind

/-- IDENT (10: R179). -/
def identBytes (s : Part) : List Byte :=
  bytes2 Config.vendorCode ++ bytes2 Config.partCode ++
  [byte Config.revision, byte (storeCode s.mgmt.store.state), byte s.mgmt.node,
   byte (s.nodeStraps.toNat + if s.cutStrap then 8 else 0)]

/-- PORT_STATE (01: R18). -/
def portBytes (r : PortRec) : List Byte :=
  [byte (linkStateCode r.state), byte (checkModeCode r.mode), byte (lockCode r.lock), byte r.good, byte r.bad,
   byte r.alt, flag r.reframe]

/-- The port an index of COUNTERS or PORT_STATE names. -/
def indexPort (i : Nat) : Port := if i = 0 then .front else .rear

/-! ### Tables -/

/-- The length of a table at the moment of the request; none for an id that is no table (10: Table 3). -/
def Part.tableLength (s : Part) : Nat → Option Nat
  | 1 => some 1
  | 2 => some 8
  | 3 => some 4
  | 4 => some 32
  | 5 => some 25
  | 6 => some 32
  | 7 => some 1
  | 8 => some 4
  | 9 => some 32
  | 10 => some 1
  | 11 => some 1
  | 16 => some s.relay.nodes.length
  | 17 => some 32
  | 18 => some 29
  | 19 => some (1 + s.arbiter.claims.length)
  | 20 => some 4
  | 21 => some 2
  | 22 => some 3
  | 23 => some 1
  | 24 => some 2
  | _ => none

/-- The entry size of a writable table (11: Table 7). -/
def entrySize : Nat → Nat
  | 1 => 6
  | 2 => 3
  | 3 => 1
  | 4 => 5
  | 5 => 5
  | 6 => 11
  | 7 => 10
  | 8 => 12
  | 9 => 4
  | 10 => 12
  | _ => 1

/-- The bytes of an entry of a writable table (11: Table 7). -/
def writableBytes (s : Part) (table i : Nat) : List Byte :=
  let t := s.tables
  match table with
  | 1 => encodeLink s.mgmt.node t.link
  | 2 => ((index? 8 i).map fun k => encodePin (t.pins.get k)).getD []
  | 3 => ((index? 4 i).map fun k => [byte (t.adopt.get k)]).getD []
  | 4 => ((index? 32 i).map fun k => encodeMap (t.switchMap.get k)).getD []
  | 5 => ((index? 25 i).map fun k =>
      encodeChan (s.classOf k) (s.nominal k) (t.channels.get k).node (t.channels.get k).output).getD []
  | 6 => ((index? 32 i).map fun k => encodeRule (t.rules.get k)).getD []
  | 7 => encodeFan t.fan
  | 8 => ((index? 4 i).map fun k => encodeGauge (t.gauges.get k)).getD []
  | 9 => ((index? 32 i).map fun k => encodePoint (t.curves.get k)).getD []
  | 10 => encodePower t.power
  | _ => [byte (inputCode t.dimmer)]

/-- The bytes of an entry of a read-only table (11: Table 8). -/
def readOnlyBytes (s : Part) (table i : Nat) : List Byte :=
  match table with
  | 16 => (s.relay.nodes[i]?.map nodeBytes).getD []
  | 17 => ((index? 32 i).map (inputBytes s)).getD []
  | 18 => chanStateBytes s i
  | 19 => claimQueueBytes s i
  | 20 => ((index? 4 i).map fun g => gaugeBytes (s.gauge g)).getD []
  | 21 => if i = 0 then conditionBytes s.mgmt else powerBytes s
  | 22 => if i = 2 then bytes2 s.mgmt.dropped else counterBytes (s.port (indexPort i)).counters
  | 23 => identBytes s
  | _ => portBytes (s.port (indexPort i))

/-- The bytes of an entry, as it stands (10: R167). -/
def entryBytes (s : Part) (table i : Nat) : List Byte :=
  if table ≤ 11 then writableBytes s table i else readOnlyBytes s table i

/-- Whole entries from an index on, as many as fit in the room left; at most so many (10: R167). -/
def gather (s : Part) (table : Nat) : Nat → Nat → Nat → List (List Byte)
  | 0, _, _ => []
  | n + 1, i, room =>
    let e := entryBytes s table i
    if e.length ≤ room then e :: gather s table n (i + 1) (room - e.length) else []

/-- The entries a read returns: as fit in 13 bytes and as the table holds (10: R167). -/
def readEntries (s : Part) (table i len : Nat) : List (List Byte) := gather s table (len - i) i 13

end Sys2Proof.Machine
end

