-- ==== Sys2Proof/Machine/Power.lean ====
section
/-! DEFINITION. The power manager (09): the limit in force, the handing of modes, wake, deferral, DORMANT entry,
HOLD, and what ends every event. -/

namespace Sys2Proof.Machine

/-- The power manager's record changed. -/
def Part.setPower (s : Part) (p : Power) : Part := { s with power := p }

/-! ### The limit in force (05: R82) -/

/-- The figure of the row in use (05: Table 2). The ignition is never OFF in RUNNING; the row of STANDING stands
there for it. -/
def Part.limitFigure (s : Part) : Nat :=
  let p := s.tables.power
  match s.mode with
  | .running =>
    match s.ignition with
    | .run => match s.power.charging with
      | .charging => p.runChg
      | .discharging => p.runDis
    | .acc => p.acc
    | .crank => p.crank
    | .off => p.parked
  | .standing => p.parked
  | .dormant | .quiet | .held => 0

/-- The limit selected again and handed to the arbiter (05: R82). -/
def selectLimit (s : Part) : Part := setLimit s.limitFigure s

/-- The charging state by the band of the threshold (05: R81). -/
def chargingBy (threshold f : Nat) (old : Charging) : Charging :=
  if threshold ≤ f then .charging else if f + 30 < threshold then .discharging else old

/-- The charging state followed at a new filtered value or threshold (05: R81). -/
def followCharging (s : Part) : Part :=
  s.setPower { s.power with charging := chargingBy s.tables.power.threshold s.supply s.power.charging }

/-! ### Handing of mode and ignition (R151, R155) -/

/-- A change of mode or ignition handed to lamp logic, the fan controller and the gauge unit, in this order
(entry 7). A wake cause has no part in it: the mode has just changed. -/
def handBlocks (was : Mode) (s : Part) : Part :=
  let s1 := selectFan (evaluateRules s)
  if was = .running ∧ s.mode = .running then startTests s1 else gaugesFollowMode s1

/-- A change of mode or ignition handed on, with the new limit before or after the claims it brings (06: R105;
entry 6). The conditions follow between the two, so that a SHED_ACTIVE cleared by the blocks and raised by the limit
changes twice (05: R93). -/
def handMode (was : Mode) (s : Part) : Part :=
  if s.limitFirst then handBlocks was (selectLimit s) else selectLimit (syncConds (handBlocks was s))

/-! ### Replies -/

/-- The answer to a request prepared as its reply (10: R166), with the working node number as source. -/
def answerRequest (q : Request) (a : Answer) (s : Part) : Part :=
  prepareReply { dest := q.source, arrival := q.arrival, source := s.mgmt.node, payload := replyPayload q.op a } s

/-- A plain answer: a status with the request's own table id and index (10: R166). -/
def Request.plain (q : Request) (st : Status) : Answer := { status := st, table := q.table, index := q.index, data := [] }

/-- A sleep record answered, if one waits (10: R173). -/
def answerSleep (st : Status) (s : Part) : Part :=
  match s.mgmt.sleep with
  | none => s
  | some q => answerRequest q (q.plain st) { s with mgmt := { s.mgmt with sleep := none } }

/-! ### Wake, deferral (R158, R160) -/

/-- A settling interval as the POWER table names it (R156). -/
def Part.startSettling (s : Part) : Interval := .settling (settlingMs s.tables.power.settling)

/-- A transmitter that leaves DARK (01: R16). -/
def PortRec.lightTx (r : PortRec) : PortRec := if r.tx = .dark then { r with tx := .filling 0 } else r

/-- Both transmitters out of DARK. -/
def lightTxs (s : Part) : Part := { s with ports := ⟨s.ports.front.lightTx, s.ports.rear.lightTx⟩ }

/-- The wake to RUNNING or STANDING from DORMANT or QUIET (R160, R161). -/
def wakeTo (mode : Mode) (s : Part) : Part :=
  let p := { s.power with mode := mode, quiet := none, reference := true, interval := s.startSettling }
  handMode s.mode (lightTxs (s.setPower p))

/-- Deferral cancelled by a wake cause; a SLEEP is answered REFUSED (R158; 10: R173). -/
def cancelDeferral (s : Part) : Part :=
  if s.power.deferral then answerSleep .refused (s.setPower { s.power with deferral := false }) else s

/-- A rise of the lamp demand flag at the power manager (06: R106). -/
def demandRise (s : Part) : Part :=
  match s.mode with
  | .standing => cancelDeferral s
  | .dormant => wakeTo .standing s
  | .running | .quiet | .held => s

/-- An evaluation with the power manager's reaction to the lamp demand flag (06: R103, R106). -/
def evaluate (s : Part) : Part :=
  let s1 := evaluateRules s
  if !s.lamps.demandFlag && s1.lamps.demandFlag then demandRise s1 else s1

/-- DORMANT entry (R159): the channels stand at their OFF values, the masks are clear, the refresh timers stopped (04:
R78). -/
def enterDormant (s : Part) : Part :=
  let p := { s.power with
    mode := Mode.dormant, deferral := false, reference := false, settled := false, interval := .none }
  answerSleep .done (handMode s.mode (forceOff (s.setPower p)))

/-- Both own transmit queues are empty, apart from one MG_REPLY (R158). -/
def Part.ownQuiet (s : Part) : Bool := (s.ownQ .front ++ s.ownQ .rear).all (·.isReply)

/-- Every condition of entry holds (R158). -/
def Part.mayEnterDormant (s : Part) : Bool :=
  s.lamps.flasher.state == .idle && s.allParked && s.allOff && s.ownQuiet && s.mgmt.commit.isNone

/-- Deferral looks at the conditions of entry (R158). -/
def testDeferral (s : Part) : Part :=
  if s.power.deferral ∧ s.mode = .standing ∧ s.mayEnterDormant then enterDormant s else s

/-! ### Timers that follow the state -/

/-- The quiet timer counts while the mode is DORMANT and both ports are DOWN (R161). -/
def followQuiet (s : Part) : Part :=
  let q := if s.mode = .dormant ∧ s.bothDown then some (s.power.quiet.getD 60000) else none
  s.setPower { s.power with quiet := q }

/-- The conditions of the idle count but for the interval timer's own use (R157). -/
def Part.mayIdle (s : Part) : Bool :=
  s.mode == .standing && !s.lamps.demandFlag && s.fan.state == .stopped && s.allParked && !s.power.deferral

/-- The full idle count (R157). -/
def Part.fullIdle (s : Part) : Interval := .idle (1000 * s.tables.power.idle)

/-- The idle count begins when its conditions come to hold and is abandoned when one lapses (R157). They are looked at
when the event is over: a count goes on where one lapses and comes back within it, the model's choice (entry 63). -/
def followIdle (s : Part) : Part :=
  let i := match s.power.interval with
    | .settling n => Interval.settling n
    | .idle n => if s.mayIdle then .idle n else .none
    | .none => if s.mayIdle then s.fullIdle else .none
  s.setPower { s.power with interval := i }

/-- An idle count starts again from the full interval (R157). -/
def restartIdle (s : Part) : Part :=
  match s.power.interval with
  | .idle _ => s.setPower { s.power with interval := s.fullIdle }
  | .none | .settling _ => s

/-- What ends every event: the conditions follow their causes, deferral looks at its conditions, the quiet timer
and the idle count follow the state. -/
def finish (s : Part) : Part := followIdle (followQuiet (testDeferral (syncConds s)))

/-! ### HOLD (R162) -/

/-- The interval timer at HOLD: a settling runs on, an idle count is abandoned, from DORMANT a settling starts; from
QUIET as from DORMANT (entry 41). -/
def Part.heldInterval (s : Part) : Interval :=
  if s.mode = .dormant ∨ s.mode = .quiet then s.startSettling
  else match s.power.interval with
    | .settling n => .settling n
    | .idle _ | .none => .none

/-- HOLD taken: power manager, arbiter, channels, lamp logic, fan, gauges (R162; 05: R96; 04: R78; 06: R105;
07: R130; 08: R148). -/
def takeHold (s : Part) : Part :=
  let s := lightTxs (answerSleep .refused s)
  let p := { s.power with
    mode := Mode.held, deferral := false, quiet := none, reference := true, interval := s.heldInterval }
  gaugesHeld (fanStopped (lampsHeld (forceOff ((s.setPower p).setArbiter Arbiter.empty))))

/-! ### Brown-out and the power-on sequence (R153) -/

/-- Brown-out reset: every block loses its state but the store and the samples (R153). -/
def brownOut (s : Part) : Part :=
  let p := s.power
  Part.powerOn .held .dark p.acc.raw p.run.raw p.start.raw none p.samples s.mgmt.store s.nodeStraps s.cutStrap
    s.limitFirst

/-- The release stage (R153). -/
def releaseReset (s : Part) : Part :=
  let p := s.power
  Part.powerOn (.released false) (.filling 0) p.acc.raw p.run.raw p.start.raw (some 20) p.samples s.mgmt.store
    s.nodeStraps s.cutStrap s.limitFirst

/-- The flags at the end of the start stage: active from the causes, changed clear, no notice owed (10: R176,
R180). -/
def startConds (s : Part) : Part :=
  let t := (levelCauses s).foldl (fun t x => t.markActive x.1 x.2) s
  { t with mgmt := { t.mgmt with changed := 0, owed := false } }

/-- The start stage (R153). -/
def startPart (s : Part) : Part :=
  let mode := if s.ignition = .off then Mode.standing else .running
  let chg := if s.tables.power.threshold ≤ s.supply then Charging.charging else .discharging
  let p := { s.power with
    stage := .running, mode := mode, charging := chg, reference := true, settled := false,
    interval := s.startSettling }
  let s1 := handMode .held ((s.setPower p).markActive .lowSupply (s.supply < 900))
  startConds s1

/-- The LOW_SUPPLY band (R152). -/
def followLowSupply (s : Part) : Part :=
  if s.supply < 900 then setCond .lowSupply true s
  else if 930 ≤ s.supply then setCond .lowSupply false s
  else s

/-- A sample taken by the supply monitor: the oldest of the four goes (R152). -/
def pushSample (v : Nat) (s : Part) : Part :=
  let q := s.power.samples
  s.setPower { s.power with
    samples := tab fun i => if i = 0 then q.get 1 else if i = 1 then q.get 2 else if i = 2 then q.get 3 else v }

/-- The thresholds in a running part (R152). -/
def followSupply (s : Part) : Part :=
  let s1 := followCharging (followLowSupply s)
  if s1.power.charging = s.power.charging then s1 else selectLimit s1

/-! ### Ignition (R149 to R151) -/

/-- A line of the ignition. -/
def Power.line (p : Power) : IgnLine → Line
  | .acc => p.acc
  | .run => p.run
  | .start => p.start

/-- One line replaced. -/
def Power.setLine (p : Power) (l : IgnLine) (x : Line) : Power :=
  match l with
  | .acc => { p with acc := x }
  | .run => { p with run := x }
  | .start => { p with start := x }

/-- A change of the ignition state in a running part (R151, R160, R161). -/
def followIgnition (s : Part) : Part :=
  match s.mode with
  | .running =>
    if s.ignition = .off then handMode .running (s.setPower { s.power with mode := .standing })
    else handMode .running s
  | .standing =>
    if s.ignition = .off then s
    else
      let s1 := cancelDeferral s
      handMode .standing (s1.setPower { s1.power with mode := .running })
  | .dormant | .quiet => if s.ignition = .off then s else wakeTo .running s
  | .held => s

end Sys2Proof.Machine
end

