-- ==== Sys2Proof/Machine/Intake.lean ====
section
/-! DEFINITION. Switch intake (03): freshness, change notices, reports, and what a write of the switch map does to
the input image. -/

namespace Sys2Proof.Machine

/-- The input image replaced. -/
def Part.setInputs (s : Part) (v : Vector Input 32) : Part := { s with inputs := v }

/-- One input replaced. -/
def Part.setInput (s : Part) (i : Fin 32) (x : Input) : Part := s.setInputs (put s.inputs i x)

/-! ### Freshness (R49 to R51) -/

/-- An input is FRESH while its reader is PRESENT on an UP port (R49). -/
def Part.freshNow (s : Part) (i : Fin 32) : Bool :=
  match s.mapEntry i with
  | none => false
  | some m => s.heard m.source

/-- A freshness taken: on becoming STALE the value freezes, the candidate goes and resync is set (R50). -/
def Input.withFresh (x : Input) (fresh : Bool) : Input :=
  if fresh then { x with fresh := true }
  else { x with fresh := false, candidate := none, count := 0, resync := true }

/-- The freshness of every input computed again (R49). -/
def followFreshness (s : Part) : Part :=
  s.setInputs (tab fun i => if (s.input i).fresh = s.freshNow i then s.input i else (s.input i).withFresh (s.freshNow i))

/-! ### Change notices (R56) -/

/-- The value of an input differs between two moments. -/
def valueChanged (old s : Part) (i : Fin 32) : Bool := (old.input i).value != (s.input i).value

/-- A notice between two moments lists an input. -/
def listed (old s : Part) (i : Fin 32) : Bool := valueChanged old s i || (old.input i).fresh != (s.input i).fresh

/-- All inputs, in order. -/
def allInputs : List (Fin 32) := List.finRange 32

/-- The change notice of one event, if it changed a value or a freshness: lamp logic, then the fan controller,
then the power manager act on it (R56; entry 7). -/
def deliverNotice (old s : Part) : Part :=
  if allInputs.any (listed old s) then
    let s1 := evaluate s
    let s2 := if listed old s s.tables.fan.input then selectFan s1 else s1
    if allInputs.any (valueChanged old s) then restartIdle s2 else s2
  else s

/-! ### Reports (R52 to R55) -/

/-- The candidate advanced by a report that differs from the value (R54). -/
def Input.advance (x : Input) (v debounce : Nat) : Input :=
  let n := if x.candidate = some v then x.count + 1 else 1
  if n = debounce then { x with value := v, candidate := none, count := 0 }
  else { x with candidate := some v, count := n }

/-- A report at a FRESH input with the debounce and limit of its map entry (R53 to R55). -/
def Input.report (x : Input) (v debounce limit : Nat) : Input :=
  if limit < v then { x with overLimit := if x.overLimit < 255 then x.overLimit + 1 else x.overLimit }
  else if x.resync then { x with value := v, candidate := none, count := 0, resync := false }
  else if v = x.value then { x with candidate := none, count := 0 }
  else x.advance v debounce

/-- The slot byte of a frame that reaches an input (R52). -/
def Part.slotReport (s : Part) (source : Nat) (payload : List Byte) (i : Fin 32) : Option (MapCfg × Nat) :=
  match s.mapEntry i with
  | none => none
  | some m =>
    if m.source = source ∧ m.slot < payload.length ∧ (s.input i).fresh then some (m, at1 payload m.slot) else none

/-- The inputs after a SWITCH_STATE frame (R52). -/
def takeReports (source : Nat) (payload : List Byte) (s : Part) : Part :=
  s.setInputs (tab fun i =>
    match s.slotReport source payload i with
    | none => s.input i
    | some (m, v) => (s.input i).report v m.debounce m.limit)

/-- A SWITCH_STATE frame at switch intake (R52). -/
def switchReport (arrival : Port) (source : Nat) (payload : List Byte) (s : Part) : Part :=
  if s.isUp arrival then deliverNotice s (takeReports source payload s) else s

/-! ### Writes of the switch map (R47) and RELEASE (R58) -/

/-- An input just mapped or remapped (R47). -/
def Input.mapped (fresh : Bool) : Input := { Input.cleared with fresh := fresh }

/-- The image after an accepted SWITCH_MAP write, the table already written (R47; 03: Table 2). -/
def remap (old new : MapCfg) (s : Part) : Part :=
  let freed (t : Part) : Part :=
    if old.source ≠ 0 ∧ (new.source = 0 ∨ new.input ≠ old.input) then t.setInput old.input Input.cleared else t
  let t := freed s
  if new.source = 0 ∨ new = old then t
  else if old.source ≠ 0 ∧ new.input = old.input ∧ new.source = old.source ∧ new.slot = old.slot then
    t.setInput new.input { t.input new.input with candidate := none, count := 0 }
  else t.setInput new.input (Input.mapped (t.freshNow new.input))

/-- The image cleared and its freshness recomputed, as at RELEASE (R58). -/
def clearInputs (s : Part) : Part := s.setInputs (tab fun i => Input.mapped (s.freshNow i))

end Sys2Proof.Machine
end

