-- ==== Sys2Proof/Machine/NodeTable.lean ====
section
/-! DEFINITION. The node table (02): learning, moves, replacement, pins, and what follows a change of an entry or
of a port. -/

namespace Sys2Proof.Machine

/-! ### Room (R29) -/

/-- The entry with the greatest age, of the lowest number among equals, in a table kept in number order (R29). -/
def oldest : List NodeEntry → Option NodeEntry
  | [] => none
  | e :: es =>
    match oldest es with
    | none => some e
    | some x => if x.age ≤ e.age then some e else some x

/-- The unpinned LOST entry a new node replaces (R29). -/
def replaceable (nodes : List NodeEntry) : Option NodeEntry :=
  oldest (nodes.filter fun e => !e.pinned && e.state == .lost)

/-- The table has room for a new node (R29). -/
def hasRoom (nodes : List NodeEntry) : Bool := nodes.length < 24 || (replaceable nodes).isSome

/-- A table with a new entry in a free place or in that of a given entry. -/
def addNode (e : NodeEntry) (goner : Option NodeEntry) (nodes : List NodeEntry) : List NodeEntry :=
  if nodes.length < 24 then putNode e nodes
  else match goner with
    | none => nodes
    | some x => putNode e (dropNode x.node nodes)

/-! ### What follows a change (R28) -/

/-- NODE_TABLE_FULL is cleared when the table has room (R29). -/
def followRoom (s : Part) : Part := if hasRoom s.relay.nodes then setCond .nodeTableFull false s else s

/-- A node-table or port change made known: switch intake, channel manager, gauge unit (R28; 03: R49; 04: R73;
08: R144). -/
def followLink (s : Part) : Part :=
  followRoom (followSenders (followNodes (deliverNotice s (followFreshness s))))

/-! ### Learning (R25 to R27) -/

/-- Role of the first good frame's kind (R25). -/
def roleOfKind (k : Nat) : Role :=
  if k = kindSwitchState then .switchReader
  else if k = kindSenderReport then .sender
  else if k = kindLampStatus then .lampNode
  else if k = kindMgRequest then .service
  else .other

/-- A move (R27). -/
def NodeEntry.moved (e : NodeEntry) (p : Port) : NodeEntry :=
  if e.duplicate then { e with port := some p, moves := 3, quietTime := 0 }
  else if e.moves = 0 ∨ 10000 ≤ e.window then { e with port := some p, moves := 1, window := 0, quietTime := 0 }
  else { e with port := some p, moves := min 3 (e.moves + 1), quietTime := 0, duplicate := decide (3 ≤ e.moves + 1) }

/-- The port of an entry after a good frame (R26). -/
def NodeEntry.heardOn (e : NodeEntry) (p : Port) : NodeEntry :=
  match e.port with
  | none => { e with port := some p }
  | some q => if q = p then e else e.moved p

/-- An entry after a good frame of its node (R26). -/
def NodeEntry.learned (e : NodeEntry) (kind : Nat) (p : Port) : NodeEntry :=
  { e.heardOn p with age := 0, role := if e.role = .none then roleOfKind kind else e.role }

/-- A new entry (R26). Its window and quiet time are 0, the model's choice (entry 62). -/
def NodeEntry.fresh (node kind : Nat) (p : Port) : NodeEntry :=
  { node := node, port := some p, role := roleOfKind kind, age := 0, moves := 0, window := 0, duplicate := false,
    quietTime := 0, pinned := false, expected := none }

/-- The source of a GOOD or REFUSED frame learned (R26, R29, R31). -/
def learn (source kind : Nat) (p : Port) (s : Part) : Part :=
  if source = s.mgmt.node then { s with relay := { s.relay with ownTimer := some 10000 } }
  else match s.node source with
    | some e => s.setNodes (putNode (e.learned kind p) s.relay.nodes)
    | none =>
      if hasRoom s.relay.nodes then
        s.setNodes (addNode (NodeEntry.fresh source kind p) (replaceable s.relay.nodes) s.relay.nodes)
      else setCond .nodeTableFull true s

/-! ### Ageing (R27, R28) -/

/-- A 10 ms step of an age (R28). -/
def NodeEntry.aged (e : NodeEntry) : NodeEntry := { e with age := bump16 e.age }

/-- A 10 ms step of every age (R28). -/
def ageNodes (s : Part) : Part := s.setNodes (s.relay.nodes.map (·.aged))

/-- DUPLICATE cleared after 10 s without a move (R27). -/
def clearDuplicate (node : Nat) (s : Part) : Part :=
  s.setNodes (s.relay.nodes.map fun e =>
    if e.node = node ∧ e.duplicate then { e with duplicate := false, moves := 0 } else e)

/-! ### Pins (R30) -/

/-- An existing entry pinned (R30). -/
def NodeEntry.pin (e : NodeEntry) (c : PinCfg) : NodeEntry :=
  { e with
    pinned := true
    role := if c.role = .none then e.role else c.role
    expected := c.expected
    port := if e.port = none then c.expected else e.port }

/-- The entry a pin makes (R30). Its window and quiet time are 0, the model's choice (entry 62). -/
def NodeEntry.ofPin (c : PinCfg) : NodeEntry :=
  { node := c.node, port := c.expected, role := c.role, age := 300, moves := 0, window := 0, duplicate := false,
    quietTime := 0, pinned := true, expected := c.expected }

/-- A pin takes its node number (R30); a pin of the working node number waits (R31). -/
def takePin (s : Part) (c : PinCfg) : Part :=
  if c.node = 0 ∨ c.node = s.mgmt.node then s
  else match s.node c.node with
    | some e => s.setNodes (putNode (e.pin c) s.relay.nodes)
    | none =>
      s.setNodes (addNode (NodeEntry.ofPin c) (oldest (s.relay.nodes.filter (!·.pinned))) s.relay.nodes)

/-- The entries of the numbers that satisfy a test become unpinned (R30). -/
def unpin (test : Nat → Bool) (s : Part) : Part :=
  s.setNodes (s.relay.nodes.map fun e =>
    if e.pinned && test e.node then { e with pinned := false, expected := none } else e)

/-- NODE_PINS as loaded applied: numbers no longer pinned are given up, every entry applied as if written (R30). That
every number is given up before the first is taken is the model's choice (entry 53). -/
def applyPins (s : Part) : Part :=
  let pins := s.tables.pins.toList
  pins.foldl takePin (unpin (fun n => !pins.any (·.node == n)) s)

/-- A NODE_PINS entry written: the old number given up when it differs, the new one taken (R30). That the old number is
given up first, so that its entry may be the one replaced, is the model's choice (entry 53). -/
def rewritePin (old new : PinCfg) (s : Part) : Part :=
  takePin (if old.node = new.node then s else unpin (· == old.node) s) new

/-! ### The working node number (R31) -/

/-- ASSIGN at the frame relay, the working node number already changed from `old`: the entry of the new number
goes, the own-number timer stops, a pin of the old number is applied again (R31). Whether the table has room is looked
at after both only, the model's choice (entry 59). -/
def renumber (old : Nat) (s : Part) : Part :=
  let s1 := s.setNodes (dropNode s.mgmt.node s.relay.nodes)
  let s2 := { s1 with relay := { s1.relay with ownTimer := none } }
  (s2.tables.pins.toList.filter (·.node == old)).foldl takePin s2

end Sys2Proof.Machine
end

