-- ==== Sys2Proof/Machine/Relay.lean ====
section
/-! DEFINITION. The frame relay (02): the header-time decision, the copies of a frame and their end, the relay
queues. -/

namespace Sys2Proof.Machine

/-! ### Queues by port -/

/-- The receive queue of a port. -/
def Part.rxQ (s : Part) (p : Port) : List RxEntry := s.relay.rxQueue.get p

/-- The receive queue of a port replaced. -/
def Part.setRxQ (s : Part) (p : Port) (q : List RxEntry) : Part :=
  { s with relay := { s.relay with rxQueue := s.relay.rxQueue.set p q } }

/-- The relay queue fed from a port. -/
def Part.relayQ (s : Part) (p : Port) : List RelayEntry := s.relay.relayQueue.get p

/-- The relay queue fed from a port replaced. -/
def Part.setRelayQ (s : Part) (p : Port) (q : List RelayEntry) : Part :=
  { s with relay := { s.relay with relayQueue := s.relay.relayQueue.set p q } }

/-- The loss-pending flag of a port written (R33). -/
def Part.setLoss (s : Part) (p : Port) (b : Bool) : Part :=
  { s with relay := { s.relay with lossPending := s.relay.lossPending.set p b } }

/-- The receive assembly of a port replaced. -/
def Part.setRx (s : Part) (p : Port) (x : Rx) : Part := s.setPort p { s.port p with rx := x }

/-- The transmitter of a port replaced. -/
def Part.setTx (s : Part) (p : Port) (t : TxState) : Part := s.setPort p { s.port p with tx := t }

/-! ### Header time (R20 to R22) -/

/-- What becomes of a frame: whether it is taken and whether it is relayed (R20). -/
structure Fate where
  take : Bool
  relay : Bool
  deriving DecidableEq, Repr

/-- The last three rows of Table 1, for a destination that is not the part's (R20). -/
def Part.otherFate (s : Part) (arrival : Port) (dest : Nat) : Fate :=
  { take := false
    relay := match s.knownPort dest with
      | some p => p != arrival
      | none => true }

/-- The header-time decision (R20). -/
def Part.fate (s : Part) (arrival : Port) (dest route : Nat) : Fate :=
  if dest = s.mgmt.node then { take := true, relay := false }
  else if s.adopted dest ∧ !s.present dest then { take := true, relay := false }
  else if dest = 63 then { take := true, relay := true }
  else if dest = 0 then
    if route = 0 then { take := true, relay := false }
    else { take := false, relay := route ≤ 15 }
  else s.otherFate arrival dest

/-- The header a relay copy carries: the route of a positional frame reduced by 1 (R21). -/
def rewriteRoute (header : List Byte) : List Byte :=
  match header with
  | dest :: route :: rest => if dest = 0 ∧ route ≠ 0 then dest :: (route - 1) :: rest else dest :: route :: rest
  | h => h

/-- The relay mode of the direction fed from a port (R35). -/
def Part.relayModeFrom (s : Part) : Port → RelayMode
  | .front => s.tables.link.relayFront
  | .rear => s.tables.link.relayRear

/-- A free transmitter: FILLING with two FILL symbols sent and nothing waiting for its arbiter (01: R16; R35). -/
def Part.txFree (s : Part) (p : Port) : Bool :=
  match (s.port p).tx with
  | .filling n => 2 ≤ n && (s.ownQ p).isEmpty
  | .sending _ | .dark => false

/-- Cut-through is possible for a frame that arrives on a port (R35). -/
def Part.mayCut (s : Part) (arrival : Port) : Bool :=
  s.relayModeFrom arrival == .cut && s.isUp arrival.other && s.txFree arrival.other
  && (s.relayQ arrival).isEmpty && (s.port arrival).mode == (s.port arrival.other).mode

/-- The take copy of a frame whose fate includes take (R22, R32). -/
def Part.takeCopy (s : Part) (p : Port) (take : Bool) : TakeCopy :=
  if !take then .none else if (s.rxQ p).length < 8 then .reserved else .noPlace

/-- The relay copy of a frame whose fate includes relay (R22, R35, R37). -/
def Part.relayCopy (s : Part) (p : Port) (relay : Bool) : RelayCopy :=
  if !relay then .none
  else if s.mayCut p then .cutThrough
  else if (s.relayQ p).length < 6 then .reserved
  else .none

/-- A relay drop counted on an arrival port (01: R18). -/
def countDrop (p : Port) (s : Part) : Part :=
  s.count p fun c => { c with relayDrops := bump16 c.relayDrops }

/-- The START of a cut-through relay (R36; 01: R17). -/
def startCut (p : Port) (header : List Byte) (s : Part) : Part :=
  s.setTx p.other (.sending
    { header := rewriteRoute header, payload := [], origin := .cutThrough p, complete := false, abort := none })

/-- Header time: the four header bytes are in, the fate is decided (R20; 01: R7). -/
def headerTime (p : Port) (s : Part) : Part :=
  let x := (s.port p).rx
  let f := s.fate p (at1 x.bytes 0) (at1 x.bytes 1)
  let copy := s.relayCopy p f.relay
  let s1 := s.setRx p
    { x with phase := .body, take := s.takeCopy p f.take, relay := copy, mode := (s.port p).mode }
  if copy = .cutThrough then startCut p x.bytes s1
  else if f.relay ∧ copy = .none then countDrop p s1
  else s1

/-! ### Bytes and outcome of a frame -/

/-- The frame that a port's arrivals feed by cut-through changed. -/
def onCut (p : Port) (f : TxFrame → TxFrame) (s : Part) : Part :=
  match (s.port p.other).tx with
  | .sending t => s.setTx p.other (.sending (f t))
  | .filling _ | .dark => s

/-- A later byte handed over (R36). -/
def feedCut (p : Port) (b : Byte) (s : Part) : Part :=
  if (s.port p).rx.relay = .cutThrough then onCut p (fun t => { t with payload := t.payload ++ [b] }) s else s

/-- The payload of a frame at its END: the bytes between header and check (01: R2). -/
def Rx.payload (x : Rx) : List Byte := (x.bytes.drop 4).take (x.bytes.length - 4 - checkLength x.mode)

/-- The receive-queue entry of a frame (R32, R33). -/
def Rx.entry (x : Rx) (p : Port) (loss : Bool) : RxEntry :=
  { dest := at1 x.bytes 0, route := at1 x.bytes 1, source := at1 x.bytes 2, kind := at1 x.bytes 3,
    payload := x.payload, arrival := p, mode := x.mode, lossMark := loss }

/-- The take copy of a frame that ended GOOD: it enters the receive queue, or makes the frame REFUSED (R32, R33;
01: R8). -/
def settleTake (p : Port) (x : Rx) (s : Part) : Part :=
  match x.take with
  | .none => s
  | .reserved => (s.setRxQ p (s.rxQ p ++ [x.entry p (s.relay.lossPending.get p)])).setLoss p false
  | .noPlace => (s.count p fun c => { c with refused := bump16 c.refused }).setLoss p true

/-- The relay copy of a frame that ended GOOD or REFUSED (R36, R37). -/
def settleRelay (p : Port) (x : Rx) (s : Part) : Part :=
  match x.relay with
  | .none => s
  | .reserved =>
    s.setRelayQ p (s.relayQ p ++ [{ header := rewriteRoute (x.bytes.take 4), payload := x.payload, waited := 0 }])
  | .cutThrough => onCut p (fun t => { t with payload := x.payload, complete := true }) s

/-- The relay copy of a frame that ended otherwise: a cut-through is to end with ABORT (R36). -/
def spoilRelay (p : Port) (x : Rx) (s : Part) : Part :=
  if x.relay = .cutThrough then onCut p (fun t => { t with abort := some .badFrame }) s else s

/-! ### A port that leaves UP -/

/-- The frame a port is sending is to end with ABORT; a cut-through relay copy is lost (01: R16; R36). -/
def abortTx (p : Port) (s : Part) : Part :=
  match (s.port p).tx with
  | .sending t =>
    let s1 := s.setTx p (.sending { t with abort := some (t.abort.getD .portLeft) })
    if t.origin = .cutThrough p.other ∧ !t.complete then
      s1.setRx p.other { (s1.port p.other).rx with relay := .none }
    else s1
  | .filling _ | .dark => s

/-! ### Ageing of the relay queues (R39) -/

/-- The oldest entry of a relay queue discarded after 500 ms (R39). -/
def ageOut (p : Port) (s : Part) : Part :=
  match s.relayQ p with
  | [] => s
  | _ :: q => setCond .queueLoss true (countDrop p (s.setRelayQ p q))

end Sys2Proof.Machine
end

