-- ==== Sys2Proof/Machine/Link.lean ====
section
/-! DEFINITION. The port interfaces (01): symbols, the end of frames, port states, check modes. -/

namespace Sys2Proof.Machine

/-! ### Port records -/

/-- The three counts at 0 (R9, R14). -/
def PortRec.zeroed (r : PortRec) : PortRec := { r with good := 0, bad := 0, alt := 0 }

/-- The lock in force, a held one taking effect, and the check mode it sets (R13). -/
def PortRec.relocked (r : PortRec) : PortRec :=
  let lock := r.heldLock.getD r.lock
  { r.zeroed with lock := lock, heldLock := none, mode := lockMode lock }

/-- The entry to SEEKING from DOWN (R10, R13). -/
def PortRec.seek (r : PortRec) : PortRec := { r.relocked with state := .seeking }

/-- The fall from UP to SEEKING: the mode is set only where a held lock takes effect (R10, R13). -/
def PortRec.fall (r : PortRec) : PortRec :=
  { (if r.heldLock.isSome then r.relocked else r.zeroed) with state := .seeking }

/-- A REFRAME takes effect (R11). -/
def PortRec.reframed (r : PortRec) : PortRec :=
  { r.relocked with state := if r.state = .up then .seeking else r.state, reframe := false }

/-- The counts and the state after a GOOD or REFUSED frame (R9, R10, R14). -/
def PortRec.afterGood (r : PortRec) : PortRec :=
  let good := min 3 (r.good + 1)
  if r.state = .seeking ∧ 2 ≤ good then { r.zeroed with state := .up }
  else { r with good := good, bad := 0, alt := 0 }

/-- The counts and the state after a bad frame; `alternate`: the frame would have been GOOD in the other mode (R9,
R10, R14). -/
def PortRec.afterBad (r : PortRec) (alternate : Bool) : PortRec :=
  let bad := min 3 (r.bad + 1)
  let alt := if alternate ∧ r.lock = .auto ∧ r.state = .seeking then r.alt + 1 else 0
  if r.state = .up ∧ 3 ≤ bad then r.fall
  else if 4 ≤ alt then { r.zeroed with mode := CheckMode.other r.mode }
  else { r with good := 0, bad := bad, alt := alt }

/-! ### A port record replaced, with what a change of its state brings -/

/-- A port record put in place: a port that has left UP ends the frame it is sending (R16). -/
def placePort (p : Port) (r : PortRec) (s : Part) : Part :=
  let s1 := s.setPort p r
  if (s.port p).state = .up ∧ r.state ≠ .up then abortTx p s1 else s1

/-- A port record written: FRONT_DOWN, REAR_DOWN and LEGACY_SEGMENT change at the transition itself (R10, R14; 10:
R176), so that each of two transitions in one event sets its changed flag; at an entry to UP a NOTICE still owed is
asked for again (10: R178). -/
def writePort (p : Port) (r : PortRec) (s : Part) : Part :=
  let s1 := syncConds (placePort p r s)
  if (s.port p).state ≠ .up ∧ r.state = .up ∧ s1.mgmt.owed then requestNotice s1 else s1

/-- A pending REFRAME takes effect (R11). What follows it is computed by itself, also where it ends a frame whose own
effects have just been made known: the model's choice (entry 46). -/
def takeReframe (p : Port) (s : Part) : Part :=
  if (s.port p).reframe then followLink (writePort p (s.port p).reframed s) else s

/-- A REFRAME requested: at once between frames, else at the end of the frame (R11). -/
def requestReframe (p : Port) (s : Part) : Part :=
  let s1 := s.setPort p { s.port p with reframe := true }
  match (s.port p).rx.phase with
  | .idle | .discard => takeReframe p s1
  | .header | .body => s1

/-! ### The ends of a frame (R5 to R8) -/

/-- The assembly between frames. -/
def clearRx (p : Port) (s : Part) : Part := s.setRx p Rx.idle

/-- A frame ends as FRAGMENT: its header was never complete (R5). -/
def dropFragment (p : Port) (s : Part) : Part :=
  (clearRx p s).count p fun c => { c with fragments := bump16 c.fragments }

/-- A frame ends as ABORTED (R5, R7). -/
def dropAborted (p : Port) (s : Part) : Part :=
  spoilRelay p (s.port p).rx ((clearRx p s).count p fun c => { c with aborted := bump16 c.aborted })

/-- The frame in reception, if any, ended by something other than its END (R5). -/
def dropFrame (p : Port) (s : Part) : Part :=
  match (s.port p).rx.phase with
  | .idle | .discard => clearRx p s
  | .header => dropFragment p s
  | .body => dropAborted p s

/-- A GOOD frame ends, REFUSED where its take copy has no place: counts and state, the copies, the learning of its
source (R6 to R10; 02: R26). That the port's entry to UP, with the NOTICE it asks for, comes before the learning is
the model's choice (entry 44); so is the one computation of what follows both (entry 46). -/
def endGood (p : Port) (s : Part) : Part :=
  let x := (s.port p).rx
  let s1 := clearRx p s
  let s2 := writePort p (s1.port p).afterGood s1
  let s3 := settleRelay p x (settleTake p x s2)
  takeReframe p (followLink (learn (at1 x.bytes 2) (at1 x.bytes 3) p s3))

/-- A bad frame ends: SHORT, LONG or BAD_CHECK (R6, R7, R9). The assembly goes to the phase given. -/
def endBad (p : Port) (phase : RxPhase) (alternate : Bool) (s : Part) : Part :=
  let x := (s.port p).rx
  let s1 := (s.setRx p { Rx.idle with phase := phase }).count p fun c => { c with bad := bump16 c.bad }
  let s2 := writePort p ((s1.port p).afterBad alternate) s1
  takeReframe p (followLink (spoilRelay p x s2))

/-- END in BODY: the outcome, and whether the frame would have been GOOD in the other mode (R6). -/
def endFrame (p : Port) (s : Part) : Part :=
  let r := s.port p
  if judge r.mode r.rx.bytes r.rx.half = .good then endGood p s
  else endBad p .idle (judge (CheckMode.other r.mode) r.rx.bytes r.rx.half == .good) s

/-! ### Symbols (R5) -/

/-- A symbol slot passes for a transmitter that sends FILL (R16). -/
def TxState.slot : TxState → TxState
  | .filling n => .filling (min 2 (n + 1))
  | .sending f => .sending f
  | .dark => .dark

/-- Any symbol heard: the quiet timer restarts, a DOWN port seeks (R5, R10); the other port's transmitter has sent
a symbol meanwhile (entry 10). -/
def hear (p : Port) (s : Part) : Part :=
  let r := s.port p
  let r1 := { (if r.state = .down then r.seek else r) with quiet := some 20 }
  let s1 := s.setPort p r1
  s1.setTx p.other (s1.port p.other).tx.slot

/-- A new frame begins (R5). -/
def beginFrame (p : Port) (s : Part) : Part :=
  s.setRx p { Rx.idle with phase := .header, mode := (s.port p).mode }

/-- START (R5). -/
def onStart (p : Port) (s : Part) : Part :=
  beginFrame p (takeReframe p (dropFrame p s))

/-- A nibble taken (R1, R5): the second of a byte completes it. -/
def takeNibble (p : Port) (n : Nibble) (s : Part) : Part :=
  let x := (s.port p).rx
  match x.half with
  | none => s.setRx p { x with half := some n }
  | some h =>
    let b : Byte := h ++ n
    let s1 := s.setRx p { x with half := none, bytes := x.bytes ++ [b] }
    if x.phase = .body then feedCut p b s1
    else if x.bytes.length = 3 then headerTime p s1
    else s1

/-- DATA (R5): a 45th DATA symbol makes the frame LONG. -/
def onData (p : Port) (n : Nibble) (s : Part) : Part :=
  let x := (s.port p).rx
  match x.phase with
  | .idle | .discard => s
  | .header => takeNibble p n s
  | .body => if x.bytes.length = 22 then endBad p .discard false s else takeNibble p n s

/-- END (R5, R6). -/
def onEnd (p : Port) (s : Part) : Part :=
  match (s.port p).rx.phase with
  | .idle => s
  | .header => takeReframe p (dropFragment p s)
  | .body => endFrame p s
  | .discard => clearRx p s

/-- ABORT or FILL (R5). -/
def onBreak (p : Port) (s : Part) : Part :=
  match (s.port p).rx.phase with
  | .idle | .discard => s
  | .header => takeReframe p (dropFragment p s)
  | .body => takeReframe p (dropAborted p s)

/-- The port is quiet: the frame in reception ends, the port goes DOWN, its own transmit queue is discarded, the
condition of the port is raised, and a pending REFRAME takes effect on the DOWN port (R5, R10, R11; 02: R42). -/
def onQuiet (p : Port) (s : Part) : Part :=
  let s1 := dropFrame p s
  let s2 := placePort p { (s1.port p).zeroed with state := .down, quiet := none } s1
  let s3 := syncConds (discardOwn p s2)
  followLink (takeReframe p s3)

/-! ### QUIET (R12) -/

/-- A port at QUIET entry: DOWN, counts at 0, no REFRAME pending, assembly IDLE, transmitter DARK (R19). -/
def PortRec.darkened (r : PortRec) : PortRec :=
  { r.zeroed with state := .down, reframe := false, rx := Rx.idle, tx := .dark, quiet := none }

/-- A port woken by line activity: SEEKING, its transmitter back to FILL (R12, R19). A held check lock takes effect
here, since R13 gives it the next entry to SEEKING, though Table 11 shows the lock in force kept: the model's choice
(entry 43). -/
def PortRec.woken (r : PortRec) : PortRec :=
  { r.seek with reframe := false, rx := Rx.idle, tx := .filling 0, quiet := some 20 }

/-- QUIET entry (09: R161): the channels stand at their OFF values, the refresh timers are stopped (04: R78). -/
def enterQuiet (s : Part) : Part :=
  let s1 := forceOff { s with ports := ⟨s.ports.front.darkened, s.ports.rear.darkened⟩ }
  handMode s.mode (s1.setPower { s1.power with mode := .quiet, quiet := none })

/-- Line activity in QUIET: DORMANT, both ports SEEKING (R12; 09: R161). -/
def wakeByLine (s : Part) : Part :=
  let s1 := { s with ports := ⟨s.ports.front.woken, s.ports.rear.woken⟩ }
  handMode s.mode (s1.setPower { s1.power with mode := .dormant })

/-- A symbol command: line activity in QUIET, else the symbol with its line activity (R5, R12). -/
def onSymbol (p : Port) (f : Part → Part) (s : Part) : Part :=
  if !s.on then s
  else if s.mode = .quiet then finish (wakeByLine s)
  else finish (f (hear p s))

end Sys2Proof.Machine
end

