-- ==== Sys2Proof/Machine/Transmit.lean ====
section
/-! DEFINITION. The transmit arbiters and the transmitters (01: R16; 02: R43). -/

namespace Sys2Proof.Machine

/-! ### START -/

/-- The first element that satisfies a test, taken out of a list. -/
def takeFirst {α : Type} (test : α → Bool) : List α → Option (α × List α)
  | [] => none
  | x :: xs => if test x then some (x, xs) else (takeFirst test xs).map fun r => (r.1, x :: r.2)

/-- The START of an own frame: its content is that of the moment, it leaves its queue, and a held reply takes the
place of a reply that left (R41; 10: R166, R178). -/
def startOwn (p : Port) (e : OwnEntry) (rest : List OwnEntry) (s : Part) : Part :=
  let origin := match e.body with
    | .lampCommand _ _ _ => TxOrigin.lampCommand
    | .notice => .notice
    | .reply _ => .reply
  let f : TxFrame :=
    { header := e.header, payload := s.ownPayload e.body, origin := origin, complete := true, abort := none }
  let s1 := (s.setOwnQ p rest).setTx p (.sending f)
  if e.isReply then handHeld s1 else s1

/-- The START of a stored relay copy (R38). -/
def startRelayed (p : Port) (e : RelayEntry) (rest : List RelayEntry) (s : Part) : Part :=
  (s.setRelayQ p.other rest).setTx p (.sending
    { header := e.header, payload := e.payload, origin := .relayed p.other, complete := true, abort := none })

/-- The arbiter's choice (R43): the oldest URGENT own entry, else the oldest entry of the relay queue toward the
port, else the oldest NORMAL own entry; with nothing waiting the transmitter stays free. -/
def chooseFrame (p : Port) (s : Part) : Part :=
  match takeFirst (·.urgent) (s.ownQ p) with
  | some (e, rest) => startOwn p e rest s
  | none =>
    match s.relayQ p.other with
    | e :: rest => startRelayed p e rest s
    | [] =>
      match s.ownQ p with
      | e :: rest => startOwn p e rest s
      | [] => s.setTx p (.filling 2)

/-- The transmitter is FILLING. -/
def PortRec.fills (r : PortRec) : Bool :=
  match r.tx with
  | .filling _ => true
  | .sending _ | .dark => false

/-! ### END and ABORT -/

/-- The transmitter of a port back at FILL, with the record of what it sent. -/
def endTx (p : Port) (sent : SentFrame) (s : Part) : Part :=
  s.setPort p { s.port p with tx := .filling 0, lastSent := some sent }

/-- The relay drop of a relay copy that its port's fall cut short (R36, R38). -/
def dropSent (t : TxFrame) (s : Part) : Part :=
  if t.abort = some .portLeft then
    match t.origin with
    | .relayed a | .cutThrough a => countDrop a s
    | .notice | .lampCommand | .reply => s
  else s

/-- A transmission ends: with ABORT where it is to be abandoned, else with the check and END, once all of it is
there (01: R16, R17). A NOTICE that ends with END clears the notice owed mark (10: R178). -/
def finishFrame (p : Port) (t : TxFrame) (s : Part) : Part :=
  let sent := t.header ++ t.payload
  if t.abort.isSome then dropSent t (endTx p { bytes := sent, aborted := true } s)
  else if t.complete then
    let s1 := endTx p { bytes := sent ++ checkBytes (s.port p).mode sent, aborted := false } s
    if t.origin = .notice then { s1 with mgmt := { s1.mgmt with owed := false } } else s1
  else s

end Sys2Proof.Machine
end

