-- ==== Sys2Proof/Machine/Writes.lean ====
section
/-! DEFINITION. Writes of table entries (10: R168): the check of each table and what its owner does with an accepted
entry. -/

namespace Sys2Proof.Machine

/-- A write of one entry: the part after it, or the status of its refusal. -/
abbrev Written := Except Status Part

/-- An entry accepted where a test holds, else REFUSED. -/
def acceptIf (test : Bool) (s : Part) : Written := if test then .ok s else .error .refused

/-- A decoded entry checked and applied; one that bytes do not spell is REFUSED (11: R183). -/
def withEntry {α : Type} (c : Option α) (f : α → Written) : Written :=
  match c with
  | none => .error .refused
  | some x => f x

/-- The other entries of a table satisfy a test. -/
def others {α : Type} {n : Nat} (v : Vector α n) (i : Fin n) (test : α → Bool) : Bool :=
  (List.finRange n).all fun j => j == i || test (v.get j)

/-! ### LINK (10: R169) -/

/-- The lock a LINK write is compared with: the held one where one is held (01: R13). -/
def PortRec.lockAsked (r : PortRec) : CheckLock := r.heldLock.getD r.lock

/-- A check lock written: where it differs it is held and acts as a REFRAME of its port (01: R13). -/
def writeLock (p : Port) (l : CheckLock) (s : Part) : Part :=
  if l = (s.port p).lockAsked then s
  else requestReframe p (s.setPort p { s.port p with heldLock := some l })

/-- A service node of 0 clears the notice owed mark (10: R178), one that RELEASE loads too, where R180 keeps the mark: the
model's choice (entry 64). -/
def dropOwed (s : Part) : Part :=
  if s.tables.link.service = 0 then { s with mgmt := { s.mgmt with owed := false } } else s

/-- A write of LINK. A write of both locks makes the change of each port known by itself (entry 46). -/
def writeLink (bs : List Byte) (s : Part) : Written :=
  withEntry (decodeLink bs) fun c =>
    acceptIf (at1 bs 0 == s.mgmt.node && c.service ≤ 62 && c.service != s.mgmt.node)
      (writeLock .rear c.lockRear (writeLock .front c.lockFront
        (dropOwed (s.setTables { s.tables with link := c }))))

/-! ### NODE_PINS (02: R30) -/

/-- A write of a NODE_PINS entry. -/
def writePin (i : Fin 8) (bs : List Byte) (s : Part) : Written :=
  withEntry (decodePin bs) fun c =>
    let old := s.tables.pins.get i
    acceptIf (c.node ≤ 62 && c.node != s.mgmt.node && (c.node == 0 || others s.tables.pins i (·.node != c.node)))
      (followLink (rewritePin old c (s.setTables { s.tables with pins := put s.tables.pins i c })))

/-! ### ADOPT (02: R23) -/

/-- A write of an ADOPT entry. -/
def writeAdopt (i : Fin 4) (bs : List Byte) (s : Part) : Written :=
  let n := at1 bs 0
  acceptIf (n ≤ 62 && n != s.mgmt.node && (n == 0 || others s.tables.adopt i (· != n)))
    (s.setTables { s.tables with adopt := put s.tables.adopt i n })

/-! ### SWITCH_MAP (03: R46, R47) -/

/-- A write of a SWITCH_MAP entry. -/
def writeMap (i : Fin 32) (bs : List Byte) (s : Part) : Written :=
  withEntry (decodeMap bs) fun c =>
    let ok := c.source ≤ 62 && c.slot ≤ 15 && 1 ≤ c.debounce && c.debounce ≤ 4 && 1 ≤ c.limit && c.limit ≤ 3
      && (c.source == 0 || others s.tables.switchMap i fun m => m.source == 0 || m.input != c.input)
    let s1 := s.setTables { s.tables with switchMap := put s.tables.switchMap i c }
    acceptIf ok (deliverNotice s (remap (s.tables.switchMap.get i) c s1))

/-! ### CHANNELS (04: R60, R61) -/

/-- The distinct lamp nodes that remote channels other than one name, with one more (R60). -/
def nodesWith (s : Part) (ch : Fin 25) (n : Nat) : List Nat :=
  (n :: (remoteChans.filter fun k => k != ch && 0 < (s.chanCfg k).nominal).map fun k => (s.chanCfg k).node).eraseDups

/-- The checks of a remote channel (R60). -/
def remoteOk (s : Part) (ch : Fin 25) (c : ChanCfg) : Bool :=
  c.node ≤ 62 &&
  (c.nominal == 0 ||
    (c.node != 0 && c.node != s.mgmt.node && c.output ≤ 7
      && others s.tables.channels ch (fun k => k.nominal == 0 || k.node != c.node || k.output != c.output)
      && (nodesWith s ch c.node).length ≤ 2))

/-- The entry as it is held: the remote fields of a local lamp read 0 (R60). -/
def ChanCfg.held (c : ChanCfg) (ch : Fin 25) : ChanCfg :=
  match kindOf ch with
  | .remote => c
  | .lamp | .fan | .gauge _ => { c with node := 0, output := 0 }

/-- The checks of R60, point 3. -/
def chanOk (s : Part) (ch : Fin 25) (c : ChanCfg) : Bool :=
  c.cls != .gauge &&
  (match kindOf ch with
   | .lamp => c.nominal ≤ 100
   | .remote => c.nominal ≤ 250 && remoteOk s ch c
   | .fan | .gauge _ => false)

/-- An accepted CHANNELS write: the records rebuilt; a demand already set claims at once (R61). -/
def applyChan (ch : Fin 25) (c : ChanCfg) (s : Part) : Part :=
  let s1 := rebuildRecords (s.setTables { s.tables with channels := put s.tables.channels ch c })
  if (s1.chan ch).demand ≠ .none ∧ 0 < c.nominal then claimChan ch s1 else s1

/-- A write of a CHANNELS entry (R60). -/
def writeChan (ch : Fin 25) (bs : List Byte) (s : Part) : Written :=
  if lampType ch then
    if (s.chan ch).state ≠ .off then .error .notAllowed
    else withEntry (decodeChan bs) fun c => acceptIf (chanOk s ch c) (applyChan ch (ChanCfg.held c ch) s)
  else .error .refused

/-! ### LAMP_RULES, LAMP_SETUP (06: R98, R99) -/

/-- A write of a LAMP_RULES entry. -/
def writeRule (i : Fin 32) (bs : List Byte) (s : Part) : Written :=
  withEntry (decodeRule bs) fun c =>
    acceptIf (c.valueA ≤ 3 && c.valueB ≤ 3 && c.priority ≤ 3 && lampType c.target)
      (evaluate (s.setTables { s.tables with rules := put s.tables.rules i c }))

/-- A write of LAMP_SETUP. -/
def writeSetup (bs : List Byte) (s : Part) : Written :=
  withEntry (inputOf (at1 bs 0)) fun d => .ok (evaluate (s.setTables { s.tables with dimmer := d }))

/-! ### FAN (07: R119) -/

/-- The ranges of a FAN entry (07: Table 1). -/
def fanOk (c : FanCfg) : Bool :=
  c.duty1 ≤ 100 && c.duty2 ≤ 100 && c.duty3 ≤ 100 && 1 ≤ c.rampStep && c.rampStep ≤ 50 && 1 ≤ c.grain
  && c.nominal ≤ 200 && 1 ≤ c.stallThreshold && c.stallThreshold ≤ 50 && need c.nominal 1 ≤ c.grain

/-- The fan holds a grant or a claim (R119). -/
def FanState.busy : FanState → Bool
  | .waiting | .ramping | .running => true
  | .stopped | .stallWait | .latched => false

/-- A write of FAN. -/
def writeFan (bs : List Byte) (s : Part) : Written :=
  if at1 bs 6 ≠ s.tables.fan.nominal ∧ s.fan.state.busy then .error .notAllowed
  else withEntry (decodeFan bs) fun c => acceptIf (fanOk c) (selectFan (s.setTables { s.tables with fan := c }))

/-! ### GAUGES, CURVES (08: R131, R132) -/

/-- The ranges of a GAUGES entry (08: Table 1). -/
def gaugeOk (c : GaugeCfg) : Bool :=
  c.node ≤ 62 && c.slot ≤ 7 && 1 ≤ c.damping && c.damping ≤ 1000 && c.parkDrive ≤ 1000 && c.nominal ≤ 50
  && (c.source == .supply || c.node != 0)

/-- The bytes of a GAUGES entry that a gauge not PARKED may not change (R131). -/
def gaugeFixed (bs : List Byte) : List Nat := [at1 bs 0, at1 bs 1, at1 bs 2, at1 bs 3, at1 bs 11]

/-- The record after an accepted GAUGES write: an undriven drive stands at the rest drive of a new type, a new park
drive and lost behaviour wait for the next tick (entry 22), a new source or sender clears the lost mark (R131). -/
def Gauge.rewritten (r : Gauge) (old new : GaugeCfg) : Gauge :=
  { r with
    drive := if r.state.driven then r.drive else restDrive new.type r.parkDrive
    lostMark := if old.source = new.source ∧ old.node = new.node then r.lostMark else false }

/-- A write of a GAUGES entry. At a gauge not PARKED a byte that differs is a change, also where it holds a code that
Table 7 does not list: the model's choice (entry 58). -/
def writeGauge (g : Fin 4) (bs : List Byte) (s : Part) : Written :=
  let old := s.gaugeCfg g
  if (s.gauge g).state ≠ .parked ∧ gaugeFixed bs ≠ gaugeFixed (encodeGauge old) then .error .notAllowed
  else withEntry (decodeGauge bs) fun c =>
    let s1 := s.setTables { s.tables with gauges := put s.tables.gauges g c }
    acceptIf (gaugeOk c) (startTest (s1.setGauge g ((s.gauge g).rewritten old c)) g)

/-- A point stands in order with its neighbours of the same curve (R132). -/
def pointOk (v : Vector CurvePoint 32) (i : Fin 32) (c : CurvePoint) : Bool :=
  (List.finRange 32).all fun j =>
    !(j.val / 8 == i.val / 8) ||
    ((!(j.val + 1 == i.val) || (v.get j).reading < c.reading) && (!(j.val == i.val + 1) || c.reading < (v.get j).reading))

/-- A write of a CURVES entry. -/
def writePoint (i : Fin 32) (bs : List Byte) (s : Part) : Written :=
  let c := decodePoint bs
  acceptIf (c.reading ≤ 1023 && c.drive ≤ 1000 && pointOk s.tables.curves i c)
    (s.setTables { s.tables with curves := put s.tables.curves i c })

/-! ### POWER (05: R80) -/

/-- The ranges of a POWER entry (05: R80; 09: R152, R156, R157). -/
def powerOk (c : PowerCfg) : Bool :=
  c.capacity ≤ 600 && c.runChg ≤ c.capacity && c.runDis ≤ c.capacity && c.acc ≤ c.capacity && c.crank ≤ c.capacity
  && c.parked ≤ c.capacity && 5 ≤ c.idle && c.idle ≤ 120 && 1200 ≤ c.threshold && c.threshold ≤ 1450

/-- A write of POWER: the charging state by the new band, the limit selected again (R80, R81). -/
def writePower (bs : List Byte) (s : Part) : Written :=
  withEntry (decodePower bs) fun c =>
    acceptIf (powerOk c) (selectLimit (followCharging (s.setTables { s.tables with power := c })))

/-! ### Any entry (10: R168) -/

/-- An index that names an entry. -/
def withIndex (n i : Nat) (f : Fin n → Written) : Written :=
  match index? n i with
  | none => .error .badIndex
  | some k => f k

/-- One entry of a writable table written as one event. -/
def writeEntry (table i : Nat) (bs : List Byte) (s : Part) : Written :=
  let r := match table with
    | 1 => writeLink bs s
    | 2 => withIndex 8 i fun k => writePin k bs s
    | 3 => withIndex 4 i fun k => writeAdopt k bs s
    | 4 => withIndex 32 i fun k => writeMap k bs s
    | 5 => withIndex 25 i fun k => writeChan k bs s
    | 6 => withIndex 32 i fun k => writeRule k bs s
    | 7 => writeFan bs s
    | 8 => withIndex 4 i fun k => writeGauge k bs s
    | 9 => withIndex 32 i fun k => writePoint k bs s
    | 10 => writePower bs s
    | 11 => writeSetup bs s
    | _ => .error .badTable
  r.map syncConds

/-- Entries written in index order until one is refused: the part, how many were written, and the status of the
one refused. -/
def writeEntries (table size : Nat) : Nat → Nat → List Byte → Part → Part × Nat × Option Status
  | 0, _, _, s => (s, 0, none)
  | n + 1, i, bs, s =>
    match writeEntry table i (bs.take size) s with
    | .error st => (s, 0, some st)
    | .ok t =>
      let r := writeEntries table size n (i + 1) (bs.drop size) t
      (r.1, r.2.1 + 1, r.2.2)

end Sys2Proof.Machine
end

