-- ==== Sys2Proof/Machine/Manage.lean ====
section
/-! DEFINITION. Dispatch of the receive queues (02: R34) and the management unit (10). -/

namespace Sys2Proof.Machine

/-! ### Dispatch (02: R33, R34) -/

/-- The queue dispatch takes from next (R34). -/
def Part.nextQueue (s : Part) : Port :=
  match s.rxQ .front, s.rxQ .rear with
  | [], _ => .rear
  | _ :: _, [] => .front
  | _ :: _, _ :: _ => s.relay.lastTaken.other

/-- The entry dispatch takes next (R34). -/
def Part.nextEntry (s : Part) : Option RxEntry := (s.rxQ s.nextQueue).head?

/-- That entry taken; one with a loss mark raises QUEUE_LOSS (R33). -/
def takeEntry (s : Part) : Part :=
  let p := s.nextQueue
  let s1 := s.setRxQ p (s.rxQ p).tail
  let s2 := { s1 with relay := { s1.relay with lastTaken := p } }
  if (s.nextEntry.map (·.lossMark)).getD false then setCond .queueLoss true s2 else s2

/-- The blocks that consume frames (02: Table 8). -/
inductive Consumer where
  | switchIntake
  | gaugeUnit
  | channelManager
  | management
  | discard
  deriving DecidableEq, Repr

/-- The consumer of an entry (02: Table 8). -/
def RxEntry.consumer (e : RxEntry) : Consumer :=
  if e.kind = kindMgRequest then .management
  else if e.dest = 0 then .discard
  else if e.kind = kindSwitchState then .switchIntake
  else if e.kind = kindSenderReport then .gaugeUnit
  else if e.kind = kindLampStatus then .channelManager
  else .discard

/-- Dispatch of the next entry where a test holds of it; the entry has left its queue when its consumer acts. In
QUIET and in the power-on sequence nothing is dispatched (10: R180; 09: R153). -/
def dispatchIf (test : RxEntry → Bool) (act : RxEntry → Part → Part) (s : Part) : Part :=
  match s.nextEntry with
  | none => s
  | some e => if s.awake ∧ test e then finish (act e (takeEntry s)) else s

/-- A discarded entry (R34). -/
def discardEntry (e : RxEntry) (s : Part) : Part :=
  s.count e.arrival fun c => { c with unknownKind := bump16 c.unknownKind }

/-! ### LAMP_STATUS (04: R77) -/

/-- Status of an output in the two status bytes (11: Table 3). -/
def outputStatus (b : Byte × Byte) (output : Nat) : Nat :=
  ((if output < 4 then b.1.toNat else b.2.toNat) / 4 ^ (output % 4)) % 4

/-- The status of its output acts on a channel (R77): 1 LIT_OK, 2 OPEN, 3 SHORT. The conditions follow each status, so
that a BULB_OUT cleared by a SHORT and raised by a later OPEN changes twice (10: R176). -/
def statusChan (b : Byte × Byte) (s : Part) (ch : Fin 25) : Part :=
  match outputStatus b (s.chanCfg ch).output with
  | 1 => setBulbOut ch false s
  | 2 => setBulbOut ch true s
  | 3 => syncConds (shortChan ch s)
  | _ => s

/-- A LAMP_STATUS frame at the channel manager; it acts on the channels lit at its arrival (R77; entry 29). -/
def lampReport (source : Nat) (payload : List Byte) (s : Part) : Part :=
  if payload.length < 4 ∨ (s.lampNode source).isNone then s
  else
    let b := (payload.getD 0 0, payload.getD 1 0)
    let s1 := s.onLampNode source fun r => { r with status := some b, supply := at2 payload 2 }
    ((s.remotesOf source).filter s.lit).foldl (statusChan b) s1

/-! ### Requests (R164, R165) -/

/-- The request an MG_REQUEST entry carries; fields a short payload lacks are 0. -/
def RxEntry.request (e : RxEntry) : Request :=
  { source := e.source, arrival := e.arrival, op := at1 e.payload 0, table := at1 e.payload 1,
    index := at1 e.payload 2, data := e.payload.drop 3 }

/-- The op a request names, when it is long enough and names one (R164, tests 1 and 2). -/
def RxEntry.op (e : RxEntry) : Option Nat :=
  if e.payload.length < 3 then none
  else if 1 ≤ at1 e.payload 0 ∧ at1 e.payload 0 ≤ 13 then some (at1 e.payload 0)
  else none

/-- A request finds no room: the slot is full, a reply is queued or held (R164). -/
def Part.mgBusy (s : Part) : Bool := s.mgmt.slot.isSome || s.replyQueued || !s.mgmt.hold.isEmpty

/-- A request dropped (R164). -/
def dropRequest (s : Part) : Part := { s with mgmt := { s.mgmt with dropped := bump16 s.mgmt.dropped } }

/-- A request answered with a status alone. -/
def answerPlain (q : Request) (st : Status) (s : Part) : Part := answerRequest q (q.plain st) s

/-- The source is the service node, or there is none (R165). -/
def Part.byService (s : Part) (q : Request) : Bool :=
  s.tables.link.service == 0 || q.source == s.tables.link.service

/-- Any source (R165). -/
def anyNode (_s : Part) (_e : RxEntry) : Bool := true

/-- The service node (R165). -/
def serviceOnly (s : Part) (e : RxEntry) : Bool := s.byService e.request

/-- A positional frame taken at route 0 (R165). -/
def positional (_s : Part) (e : RxEntry) : Bool := e.dest == 0

/-- A request served: dropped when there is no room, else permission and data length are tested, then the op
carried out (R164, tests 3 and 4). An idle count starts again whatever becomes of it (09: R157), after the request has
read what it reads: the order is the model's choice (entry 52). -/
def serve (permitted : Part → RxEntry → Bool) (lengthOk : Nat → Bool) (carry : Request → Part → Part) (e : RxEntry)
    (s : Part) : Part :=
  let q := e.request
  restartIdle
    (if s.mgBusy then dropRequest s
     else if !permitted s e then answerPlain q .notAllowed s
     else if !lengthOk q.data.length then answerPlain q .badLength s
     else carry q s)

/-- Dispatch of an MG_REQUEST of one op. -/
def dispatchOp (op : Nat) (permitted : Part → RxEntry → Bool) (lengthOk : Nat → Bool)
    (carry : Request → Part → Part) (s : Part) : Part :=
  dispatchIf (fun e => e.consumer == .management && e.op == some op) (serve permitted lengthOk carry) s

/-- No data. -/
def noData (n : Nat) : Bool := n == 0

/-- A request that is too short or names no op (R164, tests 1 and 2). -/
def serveUnknown (e : RxEntry) (s : Part) : Part :=
  let q := e.request
  restartIdle
    (if s.mgBusy then dropRequest s
     else if e.payload.length < 3 then answerPlain q .badLength s
     else answerPlain q .unknownOp s)

/-! ### Reads (R167) -/

/-- The table window written. -/
def setWindow (table index : Nat) (s : Part) : Part :=
  { s with mgmt := { s.mgmt with windowTable := table, windowIndex := index } }

/-- The tests of a read: the table's length where table and index exist (R167). -/
def readTest (s : Part) (table index : Nat) : Except Status Nat :=
  match s.tableLength table with
  | none => .error .badTable
  | some n => if index < n then .ok n else .error .badIndex

/-- READ (R167). -/
def doRead (q : Request) (s : Part) : Part :=
  match readTest s q.table q.index with
  | .error st => answerPlain q st s
  | .ok n =>
    answerRequest q
      { status := .done, table := q.table, index := q.index, data := (readEntries s q.table q.index n).flatten } s

/-- SELECT (R167). -/
def doSelect (q : Request) (s : Part) : Part :=
  match readTest s q.table q.index with
  | .error st => answerPlain q st s
  | .ok _ => answerPlain q .done (setWindow q.table q.index s)

/-- READ_NEXT (R167). -/
def doReadNext (q : Request) (s : Part) : Part :=
  let t := s.mgmt.windowTable
  let i := s.mgmt.windowIndex
  match readTest s t i with
  | .error st => answerPlain q st s
  | .ok n =>
    let es := readEntries s t i n
    answerRequest q { status := .done, table := t, index := i, data := es.flatten } (setWindow t (i + es.length) s)

/-! ### Writes (R168) -/

/-- The tests of a write at a table and an index (R168). -/
def writeTest (s : Part) (table index bytes : Nat) : Option Status :=
  if table = 0 ∨ 11 < table then some .badTable
  else if s.mgmt.commit.isSome then some .busy
  else if bytes % entrySize table ≠ 0 then some .badLength
  else if (s.tableLength table).getD 0 < index + bytes / entrySize table then some .badIndex
  else none

/-- A write at a table and an index, with the window moved by the entries written where asked (R168). The reply of
entries tried carries the table written, as the WRITE_NEXT replies of 12.4 show (entry 42). -/
def doWriteAt (table index : Nat) (moves : Bool) (q : Request) (s : Part) : Part :=
  match writeTest s table index q.data.length with
  | some st => answerPlain q st s
  | none =>
    let size := entrySize table
    let r := writeEntries table size (q.data.length / size) index q.data s
    let s1 := if moves then setWindow table (index + r.2.1) r.1 else r.1
    let a : Answer :=
      match r.2.2 with
      | none => { status := .done, table := table, index := index, data := [] }
      | some st => { status := st, table := table, index := index + r.2.1, data := [] }
    answerRequest q a s1

/-- WRITE (R168). -/
def doWrite (q : Request) (s : Part) : Part := doWriteAt q.table q.index false q s

/-- WRITE_NEXT (R168). -/
def doWriteNext (q : Request) (s : Part) : Part := doWriteAt s.mgmt.windowTable s.mgmt.windowIndex true q s

/-! ### HOLD, RELEASE (R170, R171) -/

/-- HOLD with no COMMIT in progress: taken, or nothing in HELD; answered DONE (R170). -/
def holdNow (q : Request) (s : Part) : Part :=
  answerPlain q .done (if s.mode = .held then s else takeHold s)

/-- HOLD (R170): behind a COMMIT it stays in the pending slot, also in HELD, where R170 has two cases that fit: the
model's choice (entry 56). -/
def doHold (q : Request) (s : Part) : Part :=
  if s.mgmt.commit.isSome then { s with mgmt := { s.mgmt with slot := some q } } else holdNow q s

/-- A CHANNELS entry loaded with a working node number it may not name (R171). -/
def ChanCfg.loaded (node : Nat) (c : ChanCfg) (ch : Fin 25) : ChanCfg :=
  if kindOf ch = .remote ∧ c.node = node then { c with nominal := 0 } else c

/-- The tables as RELEASE loads them for a working node number (R171). -/
def loadedTables (t : Tables) (node : Nat) : Tables :=
  { t with
    link := { t.link with service := if t.link.service = node then 0 else t.link.service }
    adopt := tab fun i => if t.adopt.get i = node then 0 else t.adopt.get i
    channels := tab fun ch => ChanCfg.loaded node (t.channels.get ch) ch }

/-- The tables RELEASE reloads: the store's when it is VALID, else the defaults (R171). -/
def Part.storedTables (s : Part) : Tables :=
  match s.mgmt.store.state with
  | .valid => s.mgmt.store.tables
  | .writing | .invalid => defaultTables s.cutStrap

/-- A check lock reloaded: held where it differs from the lock in force (01: R13; entry 36). -/
def PortRec.reloadLock (r : PortRec) (l : CheckLock) : PortRec :=
  { r with heldLock := if l = r.lock then none else some l }

/-- The check locks of the loaded LINK table at the ports (01: R13). -/
def reloadLocks (s : Part) : Part :=
  let c := s.tables.link
  { s with ports := ⟨s.ports.front.reloadLock c.lockFront, s.ports.rear.reloadLock c.lockRear⟩ }

/-- The LAMP_COMMAND entries removed from both own transmit queues (02: R44). -/
def dropCommands (s : Part) : Part :=
  let keep (q : List OwnEntry) : List OwnEntry := q.filter fun e => !e.isLampCommand
  (s.setOwnQ .front (keep (s.ownQ .front))).setOwnQ .rear (keep (s.ownQ .rear))

/-- The blocks restarted in HELD, before the mode is chosen (R171; 02: R44; 03: R58; 04: R78; 08: R148). A loaded service
node of 0 clears the notice owed mark (entry 64). -/
def releaseBlocks (s : Part) : Part :=
  let s1 := s.setTables (loadedTables s.storedTables s.mgmt.node)
  let s2 := dropOwed (setWindow 0 0 (dropCommands (reloadLocks s1)))
  let s3 := rebuildRecords (clearInputs (applyPins s2))
  followRoom (followNodes (gaugesFresh (fanStopped (forceOff s3))))

/-- RELEASE taken (R171; 09: R162): the mode chosen from the ignition, a LAMP_COMMAND to each lamp node (04: R78),
mode and ignition handed on. -/
def takeRelease (s : Part) : Part :=
  let s1 := followCharging (releaseBlocks s)
  let s2 := s1.setPower { s1.power with mode := if s1.ignition = .off then .standing else .running }
  handMode .held ((s2.channels.lampNodes.map (·.node)).foldl commandNode s2)

/-- RELEASE (R171). -/
def doRelease (q : Request) (s : Part) : Part :=
  if s.mode ≠ .held then answerPlain q .refused s
  else if s.mgmt.commit.isSome then answerPlain q .busy s
  else answerPlain q .done (takeRelease s)

/-! ### COMMIT, SLEEP (R172, R173) -/

/-- COMMIT (R172). -/
def doCommit (q : Request) (s : Part) : Part :=
  if s.mgmt.commit.isSome ∨ s.mgmt.sleep.isSome then answerPlain q .busy s
  else
    { s with mgmt := { s.mgmt with
        store := { state := .writing, tables := s.mgmt.tables, node := s.mgmt.node }, commit := some q } }

/-- A deferred HOLD taken (R170). -/
def takeDeferred (s : Part) : Part :=
  match s.mgmt.slot with
  | none => s
  | some q => holdNow q { s with mgmt := { s.mgmt with slot := none } }

/-- The completion of a COMMIT (R172). -/
def completeCommit (q : Request) (equal : Bool) (s : Part) : Part :=
  let st := if equal then StoreState.valid else .invalid
  let s1 := { s with mgmt := { s.mgmt with store := { s.mgmt.store with state := st }, commit := none } }
  takeDeferred (answerPlain q (if equal then .done else .failed) (setCond .nvFault (!equal) s1))

/-- SLEEP (R173). -/
def doSleep (q : Request) (s : Part) : Part :=
  if s.mode ≠ .standing ∨ s.lamps.demandFlag then answerPlain q .refused s
  else if s.mgmt.commit.isSome ∨ s.mgmt.sleep.isSome then answerPlain q .busy s
  else { s with mgmt := { s.mgmt with sleep := some q }, power := { s.power with deferral := true } }

/-! ### ASSIGN, REFRAME, CLEAR, CLEAR_COUNTERS (R174, R175, R177) -/

/-- A number ASSIGN may not give (R174). -/
def Part.unassignable (s : Part) (n : Nat) : Bool :=
  n == 0 || 62 < n || s.present n || s.adopted n || n == s.tables.link.service
  || remoteChans.any fun ch => 0 < (s.chanCfg ch).nominal && (s.chanCfg ch).node == n

/-- ASSIGN (R174). -/
def doAssign (q : Request) (s : Part) : Part :=
  let n := at1 q.data 0
  if s.mgmt.commit.isSome then answerPlain q .busy s
  else if n = s.mgmt.node then answerPlain q .done s
  else if s.unassignable n then answerPlain q .refused s
  else answerPlain q .done (followLink (renumber s.mgmt.node { s with mgmt := { s.mgmt with node := n } }))

/-- REFRAME (R175): the reply comes before the effect. -/
def doReframe (q : Request) (s : Part) : Part :=
  match at1 q.data 0 with
  | 0 => requestReframe .front (answerPlain q .done s)
  | 1 => requestReframe .rear (answerPlain q .done s)
  | _ => answerPlain q .refused s

/-- CLEAR (R177): event conditions inactive, then the changed flags clear. -/
def doClear (q : Request) (s : Part) : Part :=
  let mask := BitVec.ofNat 16 (at2 q.data 0)
  answerPlain q .done { s with mgmt := { s.mgmt with
    active := s.mgmt.active &&& ~~~(mask &&& eventMask), changed := s.mgmt.changed &&& ~~~mask } }

/-- The counters of a port at 0. -/
def PortRec.uncounted (r : PortRec) : PortRec := { r with counters := Counters.zero }

/-- CLEAR_COUNTERS (R175). -/
def doClearCounters (q : Request) (s : Part) : Part :=
  answerPlain q .done
    { s with ports := ⟨s.ports.front.uncounted, s.ports.rear.uncounted⟩, mgmt := { s.mgmt with dropped := 0 } }

/-! ### The load stage (R179) -/

/-- The tables and the number loaded at power-on (R179). -/
def loadStore (s : Part) : Part :=
  match s.mgmt.store.state with
  | .valid => { s with mgmt := { s.mgmt with tables := s.mgmt.store.tables, node := s.mgmt.store.node } }
  | .writing | .invalid =>
    (({ s with mgmt := { s.mgmt with
          tables := defaultTables s.cutStrap, node := defaultNode s.nodeStraps
          store := { s.mgmt.store with state := .invalid } } } : Part)).markActive .nvFault true

/-- A check lock as loaded at power-on (01: R19). -/
def PortRec.withLock (r : PortRec) (l : CheckLock) : PortRec := { r with lock := l }

/-- The load stage of the power-on sequence (R179): tables, then what is built from them: check locks, pinned
entries, lamp-node records, rest drives. -/
def loadPart (s : Part) : Part :=
  let s1 := loadStore s
  let c := s1.tables.link
  let s2 := { s1 with ports := ⟨s1.ports.front.withLock c.lockFront, s1.ports.rear.withLock c.lockRear⟩ }
  let s3 := gaugesFresh (rebuildRecords (applyPins s2))
  s3.setPower { s3.power with stage := .released true }

end Sys2Proof.Machine
end

