-- ==== Sys2Proof/Machine/LinkCommands.lean ====
section
/-! DEFINITION. The commands of the ports, the transmitters and the frame relay. A command whose event cannot occur
in the state leaves the state as it is (entry 2). -/

namespace Sys2Proof.Machine

/-- The outcome of every command: the part moves on, the waiting commands stay. -/
def State.nextPart (s : State) (p : Part) : Host.Outcome State Fault Refusal := .next { s with part := p }

/-- An event that occurs in a running part where a test holds. -/
def eventIf (test : Bool) (f : Part → Part) (s : Part) : Part := if s.on ∧ test then finish (f s) else s

/-! ### Symbols -/

/-- START_SYMBOL (01: R5). -/
def execStartSymbol (p : Port) (s : State) : Host.Outcome State Fault Refusal := s.nextPart (onSymbol p (onStart p) s.part)

/-- DATA_SYMBOL (01: R5). -/
def execDataSymbol (p : Port) (n : Nibble) (s : State) : Host.Outcome State Fault Refusal :=
  s.nextPart (onSymbol p (onData p n) s.part)

/-- END_SYMBOL (01: R6). -/
def execEndSymbol (p : Port) (s : State) : Host.Outcome State Fault Refusal := s.nextPart (onSymbol p (onEnd p) s.part)

/-- ABORT_SYMBOL (01: R5). -/
def execAbortSymbol (p : Port) (s : State) : Host.Outcome State Fault Refusal :=
  s.nextPart (onSymbol p (onBreak p) s.part)

/-- FILL_SYMBOL (01: R5). -/
def execFillSymbol (p : Port) (s : State) : Host.Outcome State Fault Refusal :=
  s.nextPart (onSymbol p (onBreak p) s.part)

/-- PORT_QUIET (01: R10): the quiet timer runs in SEEKING and UP. -/
def quietPort (p : Port) (s : Part) : Part :=
  eventIf ((s.port p).state != .down && (s.port p).quiet.isSome) (onQuiet p) s

/-- PORT_QUIET (01: R10). -/
def execPortQuiet (p : Port) (s : State) : Host.Outcome State Fault Refusal := s.nextPart (quietPort p s.part)

/-- LINE_ACTIVITY (09: R161). -/
def lineActive (s : Part) : Part := eventIf (s.mode == .quiet) wakeByLine s

/-- LINE_ACTIVITY (09: R161): a symbol on either port. -/
def execLineActivity (_p : Port) (s : State) : Host.Outcome State Fault Refusal := s.nextPart (lineActive s.part)

/-! ### Transmitters -/

/-- TRANSMIT_START (02: R43): the transmitter of an UP port is free. -/
def transmitStart (p : Port) (s : Part) : Part := eventIf (s.isUp p && (s.port p).fills) (chooseFrame p) s

/-- TRANSMIT_START (02: R43). -/
def execTransmitStart (p : Port) (s : State) : Host.Outcome State Fault Refusal := s.nextPart (transmitStart p s.part)

/-- TRANSMIT_END (01: R16). -/
def transmitEnd (p : Port) (s : Part) : Part :=
  match (s.port p).tx with
  | .sending t => eventIf true (finishFrame p t) s
  | .filling _ | .dark => s

/-- TRANSMIT_END (01: R16). -/
def execTransmitEnd (p : Port) (s : State) : Host.Outcome State Fault Refusal := s.nextPart (transmitEnd p s.part)

/-! ### Frame relay -/

/-- RELAY_AGE_OUT (02: R39): the oldest entry of a relay queue. -/
def relayAgeOut (p : Port) (s : Part) : Part := eventIf (!(s.relayQ p).isEmpty) (ageOut p) s

/-- RELAY_AGE_OUT (02: R39). -/
def execRelayAgeOut (p : Port) (s : State) : Host.Outcome State Fault Refusal := s.nextPart (relayAgeOut p s.part)

/-- NODE_AGE_STEP (02: R28). -/
def nodeAgeStep (s : Part) : Part :=
  if s.on then finish (followLink (ageNodes s)) else ageNodes s

/-- NODE_AGE_STEP (02: R28). -/
def execNodeAgeStep (s : State) : Host.Outcome State Fault Refusal := s.nextPart (nodeAgeStep s.part)

/-- DUPLICATE_CLEAR (02: R27). -/
def execDuplicateClear (node : Nat) (s : State) : Host.Outcome State Fault Refusal :=
  s.nextPart (eventIf true (clearDuplicate node) s.part)

/-- The own-number timer stopped. -/
def stopOwnTimer (s : Part) : Part := { s with relay := { s.relay with ownTimer := none } }

/-- OWN_NUMBER_TIMER_EXPIRY (02: R31). -/
def execOwnNumberTimerExpiry (s : State) : Host.Outcome State Fault Refusal :=
  s.nextPart (eventIf s.part.relay.ownTimer.isSome stopOwnTimer s.part)

end Sys2Proof.Machine
end

