-- ==== Sys2Proof/Machine/FrameCommands.lean ====
section
/-! DEFINITION. The commands of dispatch: the frames the blocks consume, the management ops, and the completion of a
COMMIT. -/

namespace Sys2Proof.Machine

/-! ### Frames -/

/-- SWITCH_STATE (03: R52). -/
def execSwitchState (s : State) : Host.Outcome State Fault Refusal :=
  s.nextPart (dispatchIf (·.consumer == .switchIntake) (fun e => switchReport e.arrival e.source e.payload) s.part)

/-- SENDER_REPORT (08: R137). -/
def execSenderReport (s : State) : Host.Outcome State Fault Refusal :=
  s.nextPart (dispatchIf (·.consumer == .gaugeUnit) (fun e => reportGauges e.source e.payload) s.part)

/-- LAMP_STATUS (04: R77). -/
def execLampStatus (s : State) : Host.Outcome State Fault Refusal :=
  s.nextPart (dispatchIf (·.consumer == .channelManager) (fun e => lampReport e.source e.payload) s.part)

/-- UNKNOWN_KIND (02: R34). -/
def execUnknownKind (s : State) : Host.Outcome State Fault Refusal :=
  s.nextPart (dispatchIf (·.consumer == .discard) discardEntry s.part)

/-! ### Management ops (10: Table 1; codes of 11: Table 5) -/

/-- READ (10: R167). -/
def execRead (s : State) : Host.Outcome State Fault Refusal := s.nextPart (dispatchOp 1 anyNode noData doRead s.part)

/-- SELECT (10: R167). -/
def execSelect (s : State) : Host.Outcome State Fault Refusal := s.nextPart (dispatchOp 2 anyNode noData doSelect s.part)

/-- READ_NEXT (10: R167). -/
def execReadNext (s : State) : Host.Outcome State Fault Refusal :=
  s.nextPart (dispatchOp 3 anyNode noData doReadNext s.part)

/-- WRITE (10: R168). -/
def execWrite (s : State) : Host.Outcome State Fault Refusal :=
  s.nextPart (dispatchOp 4 serviceOnly (fun n => n != 0) doWrite s.part)

/-- WRITE_NEXT (10: R168). -/
def execWriteNext (s : State) : Host.Outcome State Fault Refusal :=
  s.nextPart (dispatchOp 5 serviceOnly (fun n => n != 0) doWriteNext s.part)

/-- HOLD (10: R170). -/
def execHold (s : State) : Host.Outcome State Fault Refusal := s.nextPart (dispatchOp 6 serviceOnly noData doHold s.part)

/-- RELEASE (10: R171). -/
def execRelease (s : State) : Host.Outcome State Fault Refusal :=
  s.nextPart (dispatchOp 7 serviceOnly noData doRelease s.part)

/-- COMMIT (10: R172). -/
def execCommit (s : State) : Host.Outcome State Fault Refusal :=
  s.nextPart (dispatchOp 8 serviceOnly noData doCommit s.part)

/-- SLEEP (10: R173). -/
def execSleep (s : State) : Host.Outcome State Fault Refusal :=
  s.nextPart (dispatchOp 9 serviceOnly noData doSleep s.part)

/-- ASSIGN (10: R174). -/
def execAssign (s : State) : Host.Outcome State Fault Refusal :=
  s.nextPart (dispatchOp 10 positional (fun n => n == 1) doAssign s.part)

/-- REFRAME (10: R175). -/
def execReframe (s : State) : Host.Outcome State Fault Refusal :=
  s.nextPart (dispatchOp 11 serviceOnly (fun n => n == 1) doReframe s.part)

/-- CLEAR (10: R177). -/
def execClear (s : State) : Host.Outcome State Fault Refusal :=
  s.nextPart (dispatchOp 12 serviceOnly (fun n => n == 2) doClear s.part)

/-- CLEAR_COUNTERS (10: R175). -/
def execClearCounters (s : State) : Host.Outcome State Fault Refusal :=
  s.nextPart (dispatchOp 13 serviceOnly noData doClearCounters s.part)

/-- UNKNOWN_OP (10: R164). -/
def execUnknownOp (s : State) : Host.Outcome State Fault Refusal :=
  s.nextPart (dispatchIf (fun e => e.consumer == .management && e.op.isNone) serveUnknown s.part)

/-- COMMIT_COMPLETE (10: R172): a COMMIT is in progress. -/
def commitComplete (equal : Bool) (s : Part) : Part :=
  match s.mgmt.commit with
  | none => s
  | some q => eventIf true (completeCommit q equal) s

/-- COMMIT_COMPLETE (10: R172). -/
def execCommitComplete (equal : Bool) (s : State) : Host.Outcome State Fault Refusal :=
  s.nextPart (commitComplete equal s.part)

end Sys2Proof.Machine
end

