-- ==== Sys2Proof/Machine/OutputCommands.lean ====
section
/-! DEFINITION. The commands of the channel manager, the flasher, the fan and the gauges. -/

namespace Sys2Proof.Machine

/-! ### Sampling (04: R67; 07: R126) -/

/-- A lamp sampled where it is lit with a demand of one sort. -/
def sampleIf (sort : Demand → Bool) (lamps : Vector Nat 12) (s : Part) (l : Fin 12) : Part :=
  let ch := lampChan l
  if s.lit ch && sort (s.chan ch).demand then sampleLamp ch (lamps.get l) s else s

/-- A step of the sampling clock in RUNNING and STANDING (R67; entry 25). The lamps are sampled before the fan, the
model's choice (entry 60). -/
def sampleStep (lamps : Vector Nat 12) (fan : Nat) (s : Part) : Part :=
  sampleFan fan (localLamps.foldl (sampleIf (fun d => !d.flashing) lamps) s)

/-- SAMPLE_CLOCK (04: R67). -/
def execSampleClock (lamps : Vector Nat 12) (fan : Nat) (s : State) : Host.Outcome State Fault Refusal :=
  s.nextPart (eventIf (s.part.mode == .running || s.part.mode == .standing) (sampleStep lamps fan) s.part)

/-- The once-per-phase sample (R67). -/
def flashSampleStep (lamps : Vector Nat 12) (s : Part) : Part :=
  let s1 := localLamps.foldl (sampleIf (·.flashing) lamps) s
  { s1 with channels := { s1.channels with flashSample := none } }

/-- FLASH_SAMPLE (04: R67). -/
def execFlashSample (lamps : Vector Nat 12) (s : State) : Host.Outcome State Fault Refusal :=
  s.nextPart (eventIf s.part.channels.flashSample.isSome (flashSampleStep lamps) s.part)

/-! ### Lamp overload, short, retry, refresh -/

/-- A current in mA against 150 % of a nominal current in 0.1 A, three times the nominal divided by two (R69). -/
def aboveLampLevel (nominal milliamps : Nat) : Bool := 3 * (100 * nominal) < 2 * milliamps

/-- The overload timer of a lamp starts when its current is above the level, and is reset at the level or below
(R69). -/
def crossLevel (ch : Fin 25) (milliamps : Nat) (s : Part) : Part :=
  let c := s.chan ch
  let t := if aboveLampLevel (s.nominal ch) milliamps then some (c.overload.getD 50) else none
  s.setChan ch { c with overload := t }

/-- OVERLOAD_LEVEL_CROSSING (04: R69): of a lit lamp. -/
def execOverloadLevelCrossing (lamp : Fin 12) (milliamps : Nat) (s : State) : Host.Outcome State Fault Refusal :=
  s.nextPart (eventIf (s.part.lit (lampChan lamp)) (crossLevel (lampChan lamp) milliamps) s.part)

/-- OVERLOAD (04: R69): the overload timer runs. -/
def execOverload (lamp : Fin 12) (s : State) : Host.Outcome State Fault Refusal :=
  s.nextPart (eventIf (s.part.lit (lampChan lamp) && (s.part.chan (lampChan lamp)).overload.isSome)
    (overloadChan (lampChan lamp)) s.part)

/-- SHORT_TRIP (04: R71): the output is on. -/
def execShortTrip (lamp : Fin 12) (s : State) : Host.Outcome State Fault Refusal :=
  s.nextPart (eventIf (s.part.lit (lampChan lamp)) (shortChan (lampChan lamp)) s.part)

/-- RETRY_TIMER_EXPIRY (04: R70): of a lamp-type channel in FAULT. -/
def execRetryTimerExpiry (ch : Fin 25) (s : State) : Host.Outcome State Fault Refusal :=
  s.nextPart (eventIf (lampType ch && (s.part.chan ch).state == .fault && (s.part.chan ch).retryTimer.isSome)
    (retryChan ch) s.part)

/-- The refresh of a lamp node (04: R76). -/
def refreshNode (n : Nat) (s : Part) : Part :=
  if s.nodeInUse n then commandNode s n else s.onLampNode n fun r => { r with refresh := none }

/-- REFRESH_TIMER_EXPIRY (04: R76): the timer of a record runs. -/
def refreshExpiry (record : Fin 2) (s : Part) : Part :=
  match s.channels.lampNodes[record.val]? with
  | none => s
  | some r => eventIf r.refresh.isSome (refreshNode r.node) s

/-- REFRESH_TIMER_EXPIRY (04: R76). -/
def execRefreshTimerExpiry (record : Fin 2) (s : State) : Host.Outcome State Fault Refusal :=
  s.nextPart (refreshExpiry record s.part)

/-! ### Flasher -/

/-- The ON_PHASE edge at the end of an OFF phase (06: R109). -/
def onPhaseEdge (s : Part) : Part :=
  settleLights (onEdge (if s.lamps.flasher.faultSeen then .fast else .normal) s)

/-- ON_PHASE_EDGE (06: R109): the phase timer runs in OFF_PHASE. -/
def execOnPhaseEdge (s : State) : Host.Outcome State Fault Refusal :=
  s.nextPart (eventIf (s.part.lamps.flasher.state == .offPhase && s.part.lamps.flasher.timer.isSome) onPhaseEdge s.part)

/-- The OFF_PHASE edge (06: R110). -/
def offPhaseEdge (s : Part) : Part :=
  let f := s.lamps.flasher
  settleLights (s.setFlasher { f with state := .offPhase, timer := some (phaseMs f.rate) })

/-- OFF_PHASE_EDGE (06: R110): the phase timer runs in ON_PHASE. -/
def execOffPhaseEdge (s : State) : Host.Outcome State Fault Refusal :=
  s.nextPart (eventIf (s.part.lamps.flasher.state == .onPhase && s.part.lamps.flasher.timer.isSome) offPhaseEdge s.part)

/-! ### Fan -/

/-- RAMP_STEP (07: R123): the ramp timer runs. -/
def execRampStep (s : State) : Host.Outcome State Fault Refusal :=
  s.nextPart (eventIf (s.part.fan.state == .ramping && s.part.fan.ramp.isSome) fanStep s.part)

/-- The sample of a stall is the one that brings the count of a RUNNING fan to 21 (07: R126). -/
def Part.stalls (s : Part) (current : Nat) : Bool :=
  s.fan.state == .running && 20 ≤ s.fan.stallCount && current < s.tables.fan.stallThreshold

/-- STALL (07: R126). -/
def execStall (current : Nat) (s : State) : Host.Outcome State Fault Refusal :=
  s.nextPart (eventIf (s.part.stalls current) (sampleFan current) s.part)

/-- STALL_WAIT_EXPIRY (07: R127): the stall wait timer runs. -/
def execStallWaitExpiry (s : State) : Host.Outcome State Fault Refusal :=
  s.nextPart (eventIf (s.part.fan.state == .stallWait && s.part.fan.stallWait.isSome) endStallWait s.part)

/-- A current in mA against one and a half times a nominal current in 0.1 A times a duty divided by 100 (07: R128). -/
def aboveFanLevel (nominal duty milliamps : Nat) : Bool := 3 * (100 * nominal) * duty < 2 * 100 * milliamps

/-- The overload timer of the fan starts when its current is above the level, and is reset at the level or below (07:
R128). -/
def crossFanLevel (milliamps : Nat) (s : Part) : Part :=
  let above := aboveFanLevel s.tables.fan.nominal s.fan.duty milliamps
  s.setFan { s.fan with overload := if above then some (s.fan.overload.getD 50) else none }

/-- FAN_OVERLOAD_LEVEL_CROSSING (07: R128): of a driven fan. -/
def execFanOverloadLevelCrossing (milliamps : Nat) (s : State) : Host.Outcome State Fault Refusal :=
  s.nextPart (eventIf (0 < s.part.fan.duty) (crossFanLevel milliamps) s.part)

/-- FAN_OVERLOAD (07: R128): the overload timer of a driven fan runs. -/
def execFanOverload (s : State) : Host.Outcome State Fault Refusal :=
  s.nextPart (eventIf (0 < s.part.fan.duty && s.part.fan.overload.isSome) overloadFan s.part)

/-! ### Gauges -/

/-- GAUGE_TICK (08: R141). -/
def execGaugeTick (s : State) : Host.Outcome State Fault Refusal := s.nextPart (eventIf true tickGauges s.part)

/-- The last tick of one gauge's park ramp (08: R145). -/
def lastRampTick (g : Fin 4) (s : Part) : Part := endRamp (driveOutput (tickGauge s g) g) g

/-- PARK_RAMP_END (08: R145): a PARKING gauge with one tick left. -/
def execParkRampEnd (g : Fin 4) (s : State) : Host.Outcome State Fault Refusal :=
  s.nextPart (eventIf ((s.part.gauge g).state == .parking && (s.part.gauge g).rampLeft == 1) (lastRampTick g) s.part)

end Sys2Proof.Machine
end

