-- ==== Sys2Proof/Machine/PowerCommands.lean ====
section
/-! DEFINITION. The commands of the power manager and of the power-on sequence. -/

namespace Sys2Proof.Machine

/-! ### Ignition lines -/

/-- A raw level taken; each change restarts the debounce timer, but for a part held in reset, which reads no line
(09: R149, R153). -/
def changeLine (l : IgnLine) (high : Bool) (s : Part) : Part :=
  let x := s.power.line l
  if x.raw = high then s
  else s.setPower (s.power.setLine l
    { x with raw := high, timer := if s.power.stage = .held then none else some 20 })

/-- IGNITION_LINE_CHANGE (09: R149). -/
def execIgnitionLineChange (l : IgnLine) (high : Bool) (s : State) : Host.Outcome State Fault Refusal :=
  s.nextPart (changeLine l high s.part)

/-- The debounced level of a line takes the raw level (09: R149). -/
def settleLine (l : IgnLine) (s : Part) : Part :=
  let x := s.power.line l
  s.setPower (s.power.setLine l { x with level := x.raw, timer := none })

/-- The expiry of a debounce timer; in a running part a change of the ignition state is handed on (09: R149 to
R151). -/
def debounceExpiry (l : IgnLine) (s : Part) : Part :=
  if (s.power.line l).timer.isNone then s
  else
    let s1 := settleLine l s
    if !s.on then s1
    else if s1.ignition = s.ignition then finish s1
    else finish (followIgnition s1)

/-- IGNITION_DEBOUNCE_EXPIRY (09: R149). -/
def execIgnitionDebounceExpiry (l : IgnLine) (s : State) : Host.Outcome State Fault Refusal :=
  s.nextPart (debounceExpiry l s.part)

/-! ### Supply -/

/-- A supply sample by the stage of the part (09: R152, R153). -/
def supplyStep (v : Nat) (s : Part) : Part :=
  let s1 := pushSample v s
  match s1.power.stage with
  | .held => if 550 < s1.supply then releaseReset s1 else s1
  | .released _ => if s1.supply < 500 then brownOut s1 else s1
  | .running => if s1.supply < 500 then brownOut s1 else finish (followSupply s1)

/-- SUPPLY_SAMPLE (09: R152). -/
def execSupplySample (v : Nat) (s : State) : Host.Outcome State Fault Refusal := s.nextPart (supplyStep v s.part)

/-! ### Power-on sequence -/

/-- The load stage is due. -/
def nvLoadStep (s : Part) : Part := if s.power.stage = .released false then loadPart s else s

/-- NV_LOAD (10: R179). -/
def execNvLoad (s : State) : Host.Outcome State Fault Refusal := s.nextPart (nvLoadStep s.part)

/-- No debounce timer runs. -/
def Power.linesSettled (p : Power) : Bool := p.acc.timer.isNone && p.run.timer.isNone && p.start.timer.isNone

/-- The start stage, once the load and the debounce have finished (09: R153). -/
def startStep (s : Part) : Part :=
  if s.power.stage = .released true ∧ s.power.linesSettled then finish (startPart s) else s

/-- POWER_ON_START (09: R153). -/
def execPowerOnStart (s : State) : Host.Outcome State Fault Refusal := s.nextPart (startStep s.part)

/-! ### Interval timer, deferral, QUIET -/

/-- The interval timer runs a settling. -/
def Interval.isSettling : Interval → Bool
  | .settling _ => true
  | .none | .idle _ => false

/-- The interval timer runs an idle count. -/
def Interval.isIdle : Interval → Bool
  | .idle _ => true
  | .none | .settling _ => false

/-- The settled flag set and handed to the gauge unit (09: R156). -/
def settleReference (s : Part) : Part :=
  gaugesSettled (s.setPower { s.power with settled := true, interval := .none })

/-- SETTLING_EXPIRY (09: R156). -/
def execSettlingExpiry (s : State) : Host.Outcome State Fault Refusal :=
  s.nextPart (eventIf s.part.power.interval.isSettling settleReference s.part)

/-- Deferral begins (09: R157, R158). -/
def beginDeferral (s : Part) : Part := s.setPower { s.power with interval := .none, deferral := true }

/-- IDLE_EXPIRY (09: R157). -/
def execIdleExpiry (s : State) : Host.Outcome State Fault Refusal :=
  s.nextPart (eventIf s.part.power.interval.isIdle beginDeferral s.part)

/-- Deferral finds every condition of entry holding (09: R158). -/
def Part.entryDue (s : Part) : Bool := s.power.deferral && s.mode == .standing && s.mayEnterDormant

/-- DORMANT_ENTRY (09: R159). -/
def execDormantEntry (s : State) : Host.Outcome State Fault Refusal :=
  s.nextPart (eventIf s.part.entryDue enterDormant s.part)

/-- QUIET_ENTRY (09: R161): the quiet timer runs in DORMANT. -/
def execQuietEntry (s : State) : Host.Outcome State Fault Refusal :=
  s.nextPart (eventIf (s.part.mode == .dormant && s.part.power.quiet.isSome) enterQuiet s.part)

end Sys2Proof.Machine
end

