-- ==== Sys2Proof/Machine/Clock.lean ====
section
/-! DEFINITION. What time does on an empty queue: one step of it is 1 ms, in which every running timer counts down
and every running count goes up; what a timer does at its end is a command of its own (entries 1 and 3). -/

namespace Sys2Proof.Machine

/-- A running timer counts down and stops at 0. -/
def tickDown (t : Option Nat) : Option Nat := t.map (· - 1)

/-- A port (01: R5; R16: at 50 µs a symbol, 1 ms is more than two FILL symbols). -/
def PortRec.tick (r : PortRec) : PortRec :=
  { r with
    quiet := tickDown r.quiet
    tx := match r.tx with
      | .filling _ => .filling 2
      | .sending f => .sending f
      | .dark => .dark }

/-- A time that counts up to 10 s (02: R27). -/
def tickUp (moves t : Nat) : Nat := if moves = 0 then t else min 10000 (t + 1)

/-- A node-table entry (02: R27). -/
def NodeEntry.tick (e : NodeEntry) : NodeEntry :=
  { e with window := tickUp e.moves e.window, quietTime := tickUp e.moves e.quietTime }

/-- The relay queues (02: R39). -/
def RelayEntry.tick (e : RelayEntry) : RelayEntry := { e with waited := min 500 (e.waited + 1) }

/-- The frame relay. -/
def Relay.tick (r : Relay) : Relay :=
  { r with
    nodes := r.nodes.map (·.tick)
    ownTimer := tickDown r.ownTimer
    relayQueue := ⟨r.relayQueue.front.map (·.tick), r.relayQueue.rear.map (·.tick)⟩ }

/-- The overload timer of a channel; that of a dimmed lamp runs only in the on parts of its pulse (04: R69; entry
24). -/
def Chan.tickOverload (c : Chan) : Option Nat :=
  match c.demand with
  | .dim d => if d < 100 then c.overload else tickDown c.overload
  | .none | .steady | .flash | .telltale => tickDown c.overload

/-- A channel (04: R69, R70). -/
def Chan.tick (c : Chan) : Chan := { c with retryTimer := tickDown c.retryTimer, overload := c.tickOverload }

/-- The channel manager. -/
def Channels.tick (c : Channels) : Channels :=
  { chans := tab fun ch => (c.chans.get ch).tick
    lampNodes := c.lampNodes.map fun r => { r with refresh := tickDown r.refresh }
    flashSample := tickDown c.flashSample }

/-- The fan (07: R123, R127, R128). -/
def Fan.tick (f : Fan) : Fan :=
  { f with ramp := tickDown f.ramp, stallWait := tickDown f.stallWait, overload := tickDown f.overload }

/-- An ignition line (09: R149). -/
def Line.tick (l : Line) : Line := { l with timer := tickDown l.timer }

/-- The interval timer (09: R156, R157). -/
def Interval.tick : Interval → Interval
  | .none => .none
  | .settling n => .settling (n - 1)
  | .idle n => .idle (n - 1)

/-- The power manager. -/
def Power.tick (p : Power) : Power :=
  { p with
    acc := p.acc.tick, run := p.run.tick, start := p.start.tick, interval := p.interval.tick
    quiet := tickDown p.quiet }

/-- Lamp logic (06: R107). -/
def Lamps.tick (l : Lamps) : Lamps := { l with flasher := { l.flasher with timer := tickDown l.flasher.timer } }

/-- One step of time; a part held in reset has no timer (09: R153). -/
def tickPart (s : Part) : Part :=
  if s.power.stage = .held then s
  else
    { s with
      ports := ⟨s.ports.front.tick, s.ports.rear.tick⟩
      relay := s.relay.tick
      channels := s.channels.tick
      lamps := s.lamps.tick
      fan := s.fan.tick
      power := s.power.tick }

/-- What a step does on an empty queue. -/
def idleStep (s : State) : Host.Outcome State Fault Refusal := s.nextPart (tickPart s.part)

end Sys2Proof.Machine
end

