-- ==== Sys2Proof/Machine/Dispatch.lean ====
section
/-! DEFINITION. One arm for each command. -/

namespace Sys2Proof.Machine

/-- The effect of a command on everything but the queue of waiting commands. -/
def exec (i : Instr) (s : State) : Host.Outcome State Fault Refusal :=
  match i with
  | .startSymbol port => Sys2Proof.Machine.execStartSymbol port s
  | .dataSymbol port nibble => Sys2Proof.Machine.execDataSymbol port nibble s
  | .endSymbol port => Sys2Proof.Machine.execEndSymbol port s
  | .abortSymbol port => Sys2Proof.Machine.execAbortSymbol port s
  | .fillSymbol port => Sys2Proof.Machine.execFillSymbol port s
  | .portQuiet port => Sys2Proof.Machine.execPortQuiet port s
  | .lineActivity port => Sys2Proof.Machine.execLineActivity port s
  | .transmitStart port => Sys2Proof.Machine.execTransmitStart port s
  | .transmitEnd port => Sys2Proof.Machine.execTransmitEnd port s
  | .relayAgeOut arrival => Sys2Proof.Machine.execRelayAgeOut arrival s
  | .nodeAgeStep => Sys2Proof.Machine.execNodeAgeStep s
  | .duplicateClear node => Sys2Proof.Machine.execDuplicateClear node s
  | .ownNumberTimerExpiry => Sys2Proof.Machine.execOwnNumberTimerExpiry s
  | .switchState => Sys2Proof.Machine.execSwitchState s
  | .senderReport => Sys2Proof.Machine.execSenderReport s
  | .lampStatus => Sys2Proof.Machine.execLampStatus s
  | .unknownKind => Sys2Proof.Machine.execUnknownKind s
  | .read => Sys2Proof.Machine.execRead s
  | .select => Sys2Proof.Machine.execSelect s
  | .readNext => Sys2Proof.Machine.execReadNext s
  | .write => Sys2Proof.Machine.execWrite s
  | .writeNext => Sys2Proof.Machine.execWriteNext s
  | .hold => Sys2Proof.Machine.execHold s
  | .release => Sys2Proof.Machine.execRelease s
  | .commit => Sys2Proof.Machine.execCommit s
  | .sleep => Sys2Proof.Machine.execSleep s
  | .assign => Sys2Proof.Machine.execAssign s
  | .reframe => Sys2Proof.Machine.execReframe s
  | .clear => Sys2Proof.Machine.execClear s
  | .clearCounters => Sys2Proof.Machine.execClearCounters s
  | .commitComplete equal => Sys2Proof.Machine.execCommitComplete equal s
  | .sampleClock lamps fan => Sys2Proof.Machine.execSampleClock lamps fan s
  | .flashSample lamps => Sys2Proof.Machine.execFlashSample lamps s
  | .overloadLevelCrossing lamp milliamps => Sys2Proof.Machine.execOverloadLevelCrossing lamp milliamps s
  | .overload lamp => Sys2Proof.Machine.execOverload lamp s
  | .shortTrip lamp => Sys2Proof.Machine.execShortTrip lamp s
  | .retryTimerExpiry channel => Sys2Proof.Machine.execRetryTimerExpiry channel s
  | .refreshTimerExpiry record => Sys2Proof.Machine.execRefreshTimerExpiry record s
  | .onPhaseEdge => Sys2Proof.Machine.execOnPhaseEdge s
  | .offPhaseEdge => Sys2Proof.Machine.execOffPhaseEdge s
  | .rampStep => Sys2Proof.Machine.execRampStep s
  | .stall current => Sys2Proof.Machine.execStall current s
  | .stallWaitExpiry => Sys2Proof.Machine.execStallWaitExpiry s
  | .fanOverloadLevelCrossing milliamps => Sys2Proof.Machine.execFanOverloadLevelCrossing milliamps s
  | .fanOverload => Sys2Proof.Machine.execFanOverload s
  | .gaugeTick => Sys2Proof.Machine.execGaugeTick s
  | .parkRampEnd gauge => Sys2Proof.Machine.execParkRampEnd gauge s
  | .ignitionLineChange line high => Sys2Proof.Machine.execIgnitionLineChange line high s
  | .ignitionDebounceExpiry line => Sys2Proof.Machine.execIgnitionDebounceExpiry line s
  | .supplySample centivolts => Sys2Proof.Machine.execSupplySample centivolts s
  | .nvLoad => Sys2Proof.Machine.execNvLoad s
  | .powerOnStart => Sys2Proof.Machine.execPowerOnStart s
  | .settlingExpiry => Sys2Proof.Machine.execSettlingExpiry s
  | .idleExpiry => Sys2Proof.Machine.execIdleExpiry s
  | .dormantEntry => Sys2Proof.Machine.execDormantEntry s
  | .quietEntry => Sys2Proof.Machine.execQuietEntry s
  | .unknownOp => Sys2Proof.Machine.execUnknownOp s

end Sys2Proof.Machine
end

