-- ==== Sys2Proof/Safety.lean ====
section
/-! DEFINITION. What is kept safe: the laws every state of a run obeys, what the blocks' reactions within an event
never touch, and the conditions under which the management unit serves a request. -/

namespace Sys2Proof.Machine

/-! ### Laws of the state -/

/-- The law of the load budget (05: R83): the committed total is at most the limit in force. Every holder of a grant
stands in the grant order (R90). -/
def Part.budgetOk (s : Part) : Prop :=
  s.committed ≤ s.arbiter.limit ∧ ∀ ch, 0 < s.grant ch → ch ∈ s.arbiter.order

/-- Claims in the order of the queue: by class and, within a class, those with shed standing first, and no channel with
two of them (05: R85, R86). -/
def inClaimOrder (cs : List Claim) : Prop :=
  cs.Pairwise (fun a b => a.key ≤ b.key) ∧ (cs.map (·.chan)).Nodup

/-- The law of the claim queue (05: R86). -/
def Part.claimsOk (s : Part) : Prop := inClaimOrder s.arbiter.claims

/-- The law of the gauges (08: R136): no gauge is driven while the settled flag is clear. The flag is clear outside a
running part (09: R156). -/
def Part.gaugesOk (s : Part) : Prop :=
  (s.on = false → s.power.settled = false) ∧ (s.power.settled = false → ∀ g, (s.gauge g).state.driven = false)

/-- The gauge reference is on in RUNNING, STANDING and HELD and off in DORMANT and QUIET (09: R154). -/
def Mode.referenceOn : Mode → Bool
  | .running | .standing | .held => true
  | .dormant | .quiet => false

/-- The gauge reference of a running part follows its mode (09: R154). -/
def Part.referenceOk (s : Part) : Prop := s.on = true → s.power.reference = s.mode.referenceOn

/-- Numbers that strictly rise. -/
def rising (ns : List Nat) : Prop := ns.Pairwise (· < ·)

/-- The law of the node table (02: R25): at most 24 entries, in node-number order, no number twice, the working node
number in none; before the load stage there is none at all (R44). -/
def Part.nodesOk (s : Part) : Prop :=
  s.relay.nodes.length ≤ 24 ∧ rising (s.relay.nodes.map (·.node)) ∧ (∀ e ∈ s.relay.nodes, e.node ≠ s.mgmt.node) ∧
  (s.power.stage = .held ∨ s.power.stage = .released false → s.relay.nodes = [])

/-- The law of the limit in force (05: Table 2): in a running part it is the figure of the row of mode, ignition and
charging state, 0.0 A outside RUNNING and STANDING. -/
def Part.limitOk (s : Part) : Prop :=
  s.on = true →
    (s.mode = .running → s.ignition = .run → s.power.charging = .charging → s.arbiter.limit = s.tables.power.runChg) ∧
    (s.mode = .running → s.ignition = .run → s.power.charging = .discharging →
      s.arbiter.limit = s.tables.power.runDis) ∧
    (s.mode = .running → s.ignition = .acc → s.arbiter.limit = s.tables.power.acc) ∧
    (s.mode = .running → s.ignition = .crank → s.arbiter.limit = s.tables.power.crank) ∧
    (s.mode = .standing → s.arbiter.limit = s.tables.power.parked) ∧
    (s.mode ≠ .running → s.mode ≠ .standing → s.arbiter.limit = 0)

/-- The places of a port's receive queue held: its entries and the reservation (02: R32). -/
def Part.rxPlaces (s : Part) (p : Port) : Nat :=
  (s.rxQ p).length + if (s.port p).rx.take = .reserved then 1 else 0

/-- The places of a relay queue held: its entries and the reservation (02: R37). -/
def Part.relayPlaces (s : Part) (p : Port) : Nat :=
  (s.relayQ p).length + if (s.port p).rx.relay = .reserved then 1 else 0

/-- Receive queues hold at most 8 places, relay queues at most 6, own transmit queues at most 8 (02: R32, R37, R40). -/
def Part.queuesOk (s : Part) : Prop := ∀ p, s.rxPlaces p ≤ 8 ∧ s.relayPlaces p ≤ 6 ∧ (s.ownQ p).length ≤ 8

/-! ### Frames -/

/-- The conditions whose flags no reaction of the blocks touches: NODE_TABLE_FULL, QUEUE_LOSS, LOW_SUPPLY and
NV_FAULT (10: Table 4). -/
def ownMask : BitVec 16 := 0xA900#16

/-- The part with everything blanked that the blocks' reactions within an event may change: outputs, budget, lamp
logic, mode and timers of the power manager, own transmit queues, replies, condition flags. A transmitter that is
DARK is taken as FILLING, since a wake lights it. -/
def Part.still (s : Part) : Part :=
  { s with
    ports := ⟨s.ports.front.lightTx, s.ports.rear.lightTx⟩
    relay := { s.relay with ownQueue := ⟨[], []⟩ }
    channels := { chans := tab fun _ => Chan.off, lampNodes := [], flashSample := none }
    arbiter := Arbiter.empty
    lamps := Lamps.dark
    fan := Fan.stopped
    gauges := tab fun g => Gauge.parkedAt (defaultGauge g)
    power := { s.power with
      mode := .standing, interval := .none, settled := false, reference := false, deferral := false, quiet := none }
    mgmt := { s.mgmt with
      hold := [], sleep := none, active := s.mgmt.active &&& ownMask, changed := 0, owed := false } }

/-- Ports but for a lit transmitter, node table, receive and relay queues, input image, slot, window, COMMIT record,
dropped counter, node number, tables, store, ignition lines, supply samples, charging state and pins are the same. -/
def Undisturbed (s t : Part) : Prop := t.still = s.still

/-- The outputs and what drives them are the same: channels, lamp-node records, budget, lamp logic, fan, gauges. -/
def SameOutputs (s t : Part) : Prop :=
  t.channels = s.channels ∧ t.arbiter = s.arbiter ∧ t.lamps = s.lamps ∧ t.fan = s.fan ∧ t.gauges = s.gauges

/-- No DORMANT entry waits and every level condition stands as its cause (09: R158; 10: R176). -/
def Part.calm (s : Part) : Prop := s.power.deferral = false ∧ ∀ x ∈ levelCauses s, s.active x.1 = x.2

/-! ### Groups of commands -/

/-- The five symbols a port can receive (01: Table 1). -/
def symbolsOn (p : Port) (n : Nibble) : List Instr :=
  [.startSymbol p, .dataSymbol p n, .endSymbol p, .abortSymbol p, .fillSymbol p]

/-- A command of an output, of its sensing, of the settling interval, the idle interval or DORMANT entry; not of
QUIET_ENTRY, which takes the ports DOWN (09: R161), nor of an ignition line. -/
def Instr.isOutput : Instr → Bool
  | .sampleClock _ _ | .flashSample _ | .overloadLevelCrossing _ _ | .overload _ | .shortTrip _
  | .retryTimerExpiry _ | .refreshTimerExpiry _ | .onPhaseEdge | .offPhaseEdge | .rampStep | .stall _
  | .stallWaitExpiry | .fanOverloadLevelCrossing _ | .fanOverload | .gaugeTick | .parkRampEnd _
  | .settlingExpiry | .idleExpiry | .dormantEntry => true
  | _ => false

/-- A management op with its code, its permission and the data lengths that fit it (10: Table 1; 11: Table 5). -/
structure OpRow where
  command : Instr
  code : Nat
  permitted : Part → RxEntry → Bool
  lengthOk : Nat → Bool

/-- An op any node may ask for. -/
def OpRow.open_ (command : Instr) (code : Nat) : OpRow := ⟨command, code, fun _ _ => true, fun n => n == 0⟩

/-- An op for the service node, or for any node while there is none (10: R165). -/
def OpRow.service (command : Instr) (code : Nat) (lengthOk : Nat → Bool) : OpRow :=
  ⟨command, code, fun s e => s.tables.link.service == 0 || e.source == s.tables.link.service, lengthOk⟩

/-- READ -/
def OpRow.read : OpRow := .open_ .read 1
/-- SELECT -/
def OpRow.select : OpRow := .open_ .select 2
/-- READ_NEXT -/
def OpRow.readNext : OpRow := .open_ .readNext 3
/-- WRITE -/
def OpRow.write : OpRow := .service .write 4 fun n => n != 0
/-- WRITE_NEXT -/
def OpRow.writeNext : OpRow := .service .writeNext 5 fun n => n != 0
/-- HOLD -/
def OpRow.hold : OpRow := .service .hold 6 fun n => n == 0
/-- RELEASE -/
def OpRow.release : OpRow := .service .release 7 fun n => n == 0
/-- COMMIT -/
def OpRow.commit : OpRow := .service .commit 8 fun n => n == 0
/-- SLEEP -/
def OpRow.sleep : OpRow := .service .sleep 9 fun n => n == 0
/-- ASSIGN -/
def OpRow.assign : OpRow := ⟨.assign, 10, fun _ e => e.dest == 0, fun n => n == 1⟩
/-- REFRAME -/
def OpRow.reframe : OpRow := .service .reframe 11 fun n => n == 1
/-- CLEAR -/
def OpRow.clear : OpRow := .service .clear 12 fun n => n == 2
/-- CLEAR_COUNTERS -/
def OpRow.clearCounters : OpRow := .service .clearCounters 13 fun n => n == 0

/-- The thirteen ops (10: Table 1). -/
def opRows : List OpRow :=
  [.read, .select, .readNext, .write, .writeNext, .hold, .release,
   .commit, .sleep, .assign, .reframe, .clear, .clearCounters]

/-- The command that dispatches an entry (02: Table 8; 10: R164, tests 1 and 2). -/
def RxEntry.command (e : RxEntry) : Instr :=
  if e.kind = 0x51 then
    if e.payload.length < 3 then .unknownOp
    else ((opRows.find? fun r => r.code == (e.payload.getD 0 0).toNat).map (·.command)).getD .unknownOp
  else if e.dest = 0 then .unknownKind
  else if e.kind = 0x11 then .switchState
  else if e.kind = 0x21 then .senderReport
  else if e.kind = 0x32 then .lampStatus
  else .unknownKind

/-- The commands of dispatch. -/
def dispatchCommands : List Instr :=
  opRows.map (·.command) ++ [.switchState, .senderReport, .lampStatus, .unknownKind, .unknownOp]

/-- The next entry carries a request of this op (02: R34; 10: R164, tests 1 and 2). -/
structure Part.requests (s : Part) (r : OpRow) (e : RxEntry) : Prop where
  awake : s.awake = true
  next : s.nextEntry = some e
  kind : e.kind = 0x51
  long : 3 ≤ e.payload.length
  code : (e.payload.getD 0 0).toNat = r.code

/-! ### Requests -/

/-- The management unit carries the next entry out as a request of this op: there is room, permission and data length
are as 10: Table 1 gives (R164, R165). -/
structure Part.serves (s : Part) (r : OpRow) (e : RxEntry) : Prop extends s.requests r e where
  room : s.mgBusy = false
  allowed : r.permitted s e = true
  fits : r.lengthOk (e.payload.length - 3) = true

/-- A request has been answered: its reply, with the working node number as source, waits in the queue of the port
the request came by or in the reply hold (10: R166), unless that port is DOWN (02: R40) or all 8 places of its queue
are held (entry 45), where the reply is discarded. -/
def Part.answered (t : Part) (q : Request) (a : Answer) : Prop :=
  (t.port q.arrival).state = .down
  ∨ 8 ≤ (t.ownQ q.arrival).length
  ∨ { dest := q.source, source := t.mgmt.node, body := .reply (replyPayload q.op a) } ∈ t.ownQ q.arrival
  ∨ { dest := q.source, arrival := q.arrival, source := t.mgmt.node, payload := replyPayload q.op a } ∈ t.mgmt.hold

end Sys2Proof.Machine
end

