-- ==== Sys2Proof/Certificates/Slice0/Obligations.lean ====
section
/-! DEFINITION. The statements for the provers. Each says what it states in its docstring; t is always the part
after the command. -/

open Sys2Proof Sys2Proof.Machine

/-! ### The step, the queue and reset -/

/-- A step takes the command at the front of the queue and runs it on the queue's rest. -/
def Obligations.StepRunsFrontCommand : Prop :=
  ∀ (c : Instr) (rest : List Instr) (p : Part),
    step { part := p, pending := c :: rest } = exec c { part := p, pending := rest }

/-- On an empty queue 1 ms passes (the model's choice, entry 3): every running timer counts down by 1 ms and stops at
0, but for the overload timer of a lamp dimmed below 100 % (entry 24), every relay-queue entry has waited 1 ms longer up
to 500 ms, the window and the quiet time of a node that has moved go on up to 10 s (entry 16), and mode, inputs, budget, gauges and
management stay. A part held in reset has no timer. -/
def Obligations.EmptyQueueLetsOneMillisecondPass : Prop :=
  ∀ s : State, s.pending = [] → ∃ t : Part, step s = .next { s with part := t } ∧
    (s.part.power.stage = .held → t = s.part) ∧
    (s.part.power.stage ≠ .held →
      (∀ p, (t.port p).quiet = (s.part.port p).quiet.map (· - 1)) ∧
      t.relay.ownTimer = s.part.relay.ownTimer.map (· - 1) ∧
      (∀ p, (t.relayQ p).map (·.waited) = (s.part.relayQ p).map fun e => min 500 (e.waited + 1)) ∧
      t.relay.nodes = s.part.relay.nodes.map (fun e => { e with
        window := if e.moves = 0 then e.window else min 10000 (e.window + 1)
        quietTime := if e.moves = 0 then e.quietTime else min 10000 (e.quietTime + 1) }) ∧
      (∀ ch, (t.chan ch).retryTimer = (s.part.chan ch).retryTimer.map (· - 1) ∧
        ((∀ d, (s.part.chan ch).demand = .dim d → 100 ≤ d) →
          (t.chan ch).overload = (s.part.chan ch).overload.map (· - 1))) ∧
      t.channels.lampNodes = s.part.channels.lampNodes.map (fun r => { r with refresh := r.refresh.map (· - 1) }) ∧
      t.channels.flashSample = s.part.channels.flashSample.map (· - 1) ∧
      t.lamps.flasher.timer = s.part.lamps.flasher.timer.map (· - 1) ∧
      t.fan.ramp = s.part.fan.ramp.map (· - 1) ∧
      t.fan.stallWait = s.part.fan.stallWait.map (· - 1) ∧
      t.fan.overload = s.part.fan.overload.map (· - 1) ∧
      t.power.acc.timer = s.part.power.acc.timer.map (· - 1) ∧
      t.power.run.timer = s.part.power.run.timer.map (· - 1) ∧
      t.power.start.timer = s.part.power.start.timer.map (· - 1) ∧
      t.power.quiet = s.part.power.quiet.map (· - 1) ∧
      t.power.interval = (match s.part.power.interval with
        | .none => .none
        | .settling n => .settling (n - 1)
        | .idle n => .idle (n - 1)) ∧
      t.power.mode = s.part.power.mode ∧ t.inputs = s.part.inputs ∧ t.arbiter = s.part.arbiter ∧
      t.gauges = s.part.gauges ∧ t.mgmt = s.part.mgmt)

/-- Right after reset every block has the power-on values its chapter gives (R19, R44, R58, R78, R96, R117, R130,
R148, R163, R180), stage 1 of the power-on sequence has been taken (R153; the model's choice of where a run begins,
entry 5), and no command waits. -/
def Obligations.ResetHasPowerOnValues : Prop :=
  let t := State.reset.part
  State.reset.pending = [] ∧ t.power.stage = .released false ∧
  (∀ p, (t.port p).state = .down ∧ (t.port p).mode = .check16 ∧ (t.port p).good = 0 ∧ (t.port p).bad = 0 ∧
    (t.port p).alt = 0 ∧ (t.port p).reframe = false ∧ (t.port p).quiet = none ∧ (t.port p).rx.phase = .idle ∧
    (t.port p).tx = .filling 0 ∧ (t.port p).counters = Counters.zero) ∧
  t.relay.nodes = [] ∧ t.relay.ownTimer = none ∧ t.relay.lastTaken = .rear ∧
  (∀ p, t.rxQ p = [] ∧ t.relayQ p = [] ∧ t.ownQ p = [] ∧ t.relay.lossPending.get p = false) ∧
  (∀ i, t.input i =
    { value := 0, fresh := false, candidate := none, count := 0, resync := true, overLimit := 0 }) ∧
  (∀ ch, t.chanState ch = .off ∧ t.grant ch = 0 ∧ (t.chan ch).demand = .none ∧ (t.chan ch).bulbOut = false ∧
    (t.chan ch).fault = .none ∧ (t.chan ch).latched = false ∧ (t.chan ch).retry = 0 ∧
    (t.chan ch).retryTimer = none ∧ (t.chan ch).measured = 0 ∧ t.lit ch = false) ∧
  t.committed = 0 ∧ t.arbiter.claims = [] ∧ t.arbiter.order = [] ∧
  t.lamps.flasher = { state := .idle, rate := .normal, timer := none, faultSeen := false } ∧
  t.fan.state = .stopped ∧ t.fan.duty = 0 ∧ t.fan.shedMark = false ∧ t.fan.retry = 0 ∧ t.fan.latchCause = .none ∧
  t.fan.ramp = none ∧ t.fan.stallWait = none ∧ t.fan.overload = none ∧ t.fan.stallCount = 0 ∧
  (∀ g, (t.gauge g).state = .parked ∧ (t.gauge g).store = [] ∧ (t.gauge g).last = none ∧
    (t.gauge g).slip = false ∧ (t.gauge g).lastSlip = .none ∧ (t.gauge g).slipCount = 0 ∧
    (t.gauge g).lostMark = false ∧ (t.gauge g).rampStart = 0 ∧ (t.gauge g).rampLeft = 0) ∧
  t.power.settled = false ∧ t.power.deferral = false ∧ t.power.quiet = none ∧
  t.mgmt.slot = none ∧ t.mgmt.hold = [] ∧ t.mgmt.windowTable = 0 ∧ t.mgmt.windowIndex = 0 ∧ t.mgmt.commit = none ∧
  t.mgmt.sleep = none ∧ t.mgmt.active = 0 ∧ t.mgmt.changed = 0 ∧ t.mgmt.owed = false ∧ t.mgmt.dropped = 0

/-- Every command answers a next state, in every state, and touches no waiting command: the manual names no state in
which the part stops. -/
def Obligations.EveryCommandAnswers : Prop :=
  (∀ (c : Instr) (s : State), ∃ t : Part, exec c s = .next { s with part := t }) ∧
  ∀ s : State, ∃ t : State, step s = .next t

/-! ### Laws that every step keeps -/

/-- The laws of the budget, the claim queue, the gauges, the reference, the node table and the queues hold right after
reset. -/
def Obligations.LawsHoldAtReset : Prop :=
  State.reset.part.budgetOk ∧ State.reset.part.gaugesOk ∧ State.reset.part.referenceOk ∧ State.reset.part.nodesOk ∧
  State.reset.part.queuesOk ∧ State.reset.part.claimsOk

/-- Every step keeps the law of the load budget: the committed total, the sum of all grants held, is at most the limit
in force. Every step keeps the claim queue in order, SAFETY before GAUGE before COMFORT and within a class the claims
with shed standing first, with one claim a channel at most. -/
def Obligations.StepKeepsBudgetLaw : Prop :=
  (∀ s t : State, s.part.budgetOk → step s = .next t → t.part.budgetOk) ∧
  (∀ s t : State, s.part.claimsOk → step s = .next t → t.part.claimsOk)

/-- Every step keeps the law of the gauges, no gauge is driven while the settled flag is clear, and keeps the gauge
reference on in RUNNING, STANDING and HELD and off in DORMANT and QUIET. -/
def Obligations.StepKeepsGaugeAndReferenceLaws : Prop :=
  (∀ s t : State, s.part.gaugesOk → step s = .next t → t.part.gaugesOk) ∧
  (∀ s t : State, s.part.referenceOk → step s = .next t → t.part.referenceOk)

/-- Every step keeps the node table at 24 entries or fewer, in node-number order, with no number twice and without the
working node number. -/
def Obligations.StepKeepsNodeTable : Prop :=
  ∀ s t : State, s.part.nodesOk → step s = .next t → t.part.nodesOk

/-- Every step keeps the places held in each receive queue at 8 or fewer and in each relay queue at 6 or fewer,
reservations counted, and each own transmit queue at 8 entries or fewer (what becomes of a ninth is the model's choice,
entry 45). -/
def Obligations.StepKeepsQueuePlaces : Prop :=
  ∀ s t : State, s.part.queuesOk → step s = .next t → t.part.queuesOk

/-! ### Checks -/

open Polynomial in
/-- The CHECK16 check is the remainder of header and payload, as a polynomial over GF(2) in line order from each
byte's most significant bit with the register preset to all ones, under the generator x^16 + x^15 + x^2 + 1. It is
sent without inversion, high byte first; a receiver passes exactly the frames whose last two bytes equal it; a
transmitter in CHECK16 mode sends it over what it sends. -/
def Obligations.Check16IsTheRemainder : Prop :=
  let bitsOf : List Byte → List Bool := fun bytes => bytes.flatMap fun b => (List.range 8).map fun i => b.getLsbD (7 - i)
  let poly : List Bool → (ZMod 2)[X] := fun bits => bits.foldl (fun P b => P * X + C (if b then 1 else 0)) 0
  let register : BitVec 16 → (ZMod 2)[X] := fun r => ∑ i ∈ Finset.range 16, if r.getLsbD i then X ^ i else 0
  let G : (ZMod 2)[X] := X ^ 16 + X ^ 15 + X ^ 2 + 1
  (∀ bytes : List Byte, ∃ Q : (ZMod 2)[X],
    register (crc16 bytes) + Q * G
      = register 0xFFFF#16 * X ^ (8 * bytes.length) + poly (bitsOf bytes) * X ^ 16) ∧
  (∀ bytes : List Byte, ∃ high low : Byte, checkBytes .check16 bytes = [high, low] ∧ high ++ low = crc16 bytes) ∧
  (∀ (bytes : List Byte) (a b : Byte),
    checkPasses .check16 (bytes ++ [a, b]) = true ↔ [a, b] = checkBytes .check16 bytes) ∧
  (∀ (s : State) (p : Port) (f : TxFrame), s.part.on = true → (s.part.port p).mode = .check16 →
    (s.part.port p).tx = .sending f → f.complete = true → f.abort = none →
    ∃ t : Part, exec (.transmitEnd p) s = .next { s with part := t } ∧
      (t.port p).lastSent = some
        { bytes := f.header ++ f.payload ++ checkBytes .check16 (f.header ++ f.payload), aborted := false })

/-- The SUM8 check is the one byte that makes the sum of header, payload and check 0 modulo 256: a receiver passes
exactly the frames whose sum is 0, and a transmitter in SUM8 mode sends 256 minus the sum modulo 256 of what it sends,
taken modulo 256. -/
def Obligations.Sum8CheckMakesTheSumZero : Prop :=
  let sum : List Byte → Nat := fun bytes => (bytes.map BitVec.toNat).sum
  (∀ bytes : List Byte, checkPasses .sum8 bytes = true ↔ sum bytes % 256 = 0) ∧
  (∀ bytes : List Byte, ∃ c : Byte, checkBytes .sum8 bytes = [c] ∧ c.toNat = (256 - sum bytes % 256) % 256) ∧
  (∀ bytes : List Byte, checkPasses .sum8 (bytes ++ checkBytes .sum8 bytes) = true) ∧
  (∀ (s : State) (p : Port) (f : TxFrame), s.part.on = true → (s.part.port p).mode = .sum8 →
    (s.part.port p).tx = .sending f → f.complete = true → f.abort = none →
    ∃ t : Part, exec (.transmitEnd p) s = .next { s with part := t } ∧
      (t.port p).lastSent = some
        { bytes := f.header ++ f.payload ++ checkBytes .sum8 (f.header ++ f.payload), aborted := false })

/-! ### Writable tables -/

/-- An accepted write of an entry reads back as the bytes written, for every writable table; of a CHANNELS entry of a
local lamp the class and the nominal current read back, and its remote fields read 0. -/
def Obligations.AcceptedWritesReadBack : Prop :=
  ∀ (s t : Part) (table i : Nat) (bs : List Byte), 1 ≤ table → table ≤ 11 → bs.length = entrySize table →
    writeEntry table i bs s = .ok t →
    if table = 5 ∧ i < 17 then entryBytes t table i = bs.take 3 ++ [0, 0] else entryBytes t table i = bs

/-! ### Symbols -/

/-- Any symbol takes a DOWN port to SEEKING, restarts its quiet timer at 20 ms and leaves the state of the other port
as it is. -/
def Obligations.SymbolTakesDownPortToSeeking : Prop :=
  ∀ (s : State) (p : Port) (n : Nibble), ∀ c ∈ symbolsOn p n, s.part.on = true → s.part.mode ≠ .quiet →
    ∃ t : Part, exec c s = .next { s with part := t } ∧
      (t.port p).quiet = some 20 ∧ ((s.part.port p).state = .down → (t.port p).state = .seeking) ∧
      (t.port p.other).state = (s.part.port p.other).state

/-- A symbol on either port, or line activity, takes the part from QUIET to DORMANT: both ports SEEKING with counts at
0, assemblies IDLE, transmitters back at FILL; the check lock is a held one where one waits, and the check mode is set
by it; the reference and the settled flag stay, and the queues, the node table, the inputs and the tables stay. That a
held lock takes effect at this wake is the model's choice (entry 43), that a symbol command acts as LINE_ACTIVITY its
reading (entry 27). -/
def Obligations.SymbolWakesQuietPart : Prop :=
  ∀ (s : State) (p : Port) (n : Nibble), ∀ c ∈ Instr.lineActivity p :: symbolsOn p n,
    s.part.on = true → s.part.mode = .quiet →
    ∃ t : Part, exec c s = .next { s with part := t } ∧
      t.mode = .dormant ∧ t.power.reference = s.part.power.reference ∧ t.power.settled = s.part.power.settled ∧
      t.power.quiet = none ∧
      (∀ q, (t.port q).state = .seeking ∧ (t.port q).good = 0 ∧ (t.port q).bad = 0 ∧ (t.port q).alt = 0 ∧
        (t.port q).reframe = false ∧ (t.port q).rx = Rx.idle ∧ (t.port q).tx = .filling 0 ∧
        (t.port q).quiet = some 20 ∧ (t.port q).counters = (s.part.port q).counters ∧
        (t.port q).lock = (s.part.port q).heldLock.getD (s.part.port q).lock ∧
        (t.port q).mode = if (t.port q).lock = .fixed8 then .sum8 else .check16) ∧
      t.relay.nodes = s.part.relay.nodes ∧ (∀ q, t.rxQ q = s.part.rxQ q ∧ t.relayQ q = s.part.relayQ q) ∧
      t.inputs = s.part.inputs ∧ t.tables = s.part.tables

/-- START begins a new frame in HEADER with no byte received; a frame in HEADER ends as FRAGMENT, one in BODY as
ABORTED, one in DISCARD uncounted. No REFRAME waits any longer, and one that waited takes an UP port to SEEKING. -/
def Obligations.StartSymbolBeginsFrame : Prop :=
  ∀ (s : State) (p : Port), s.part.on = true → s.part.mode ≠ .quiet →
    let r := s.part.port p
    ∃ t : Part, exec (.startSymbol p) s = .next { s with part := t } ∧
      (t.port p).rx = { phase := .header, bytes := [], half := none, take := .none, relay := .none,
                        mode := (t.port p).mode } ∧
      (t.port p).counters = (match r.rx.phase with
        | .header => { r.counters with fragments := bump16 r.counters.fragments }
        | .body => { r.counters with aborted := bump16 r.counters.aborted }
        | .idle | .discard => r.counters) ∧
      (t.port p).reframe = false ∧
      (t.port p).state = (match r.state with
        | .down => .seeking
        | .seeking => .seeking
        | .up => if r.reframe then .seeking else .up) ∧
      (∀ q, t.rxQ q = s.part.rxQ q ∧ t.relayQ q = s.part.relayQ q) ∧ t.relay.nodes = s.part.relay.nodes

/-- DATA is ignored between frames and in DISCARD; otherwise its nibble is taken, high nibble first, and the second
nibble completes a byte. The 45th DATA symbol of a frame makes it LONG: the bad counter goes up by 1 and the rest of
the frame is ignored. -/
def Obligations.DataSymbolAddsNibble : Prop :=
  ∀ (s : State) (p : Port) (n : Nibble), s.part.on = true → s.part.mode ≠ .quiet →
    let r := s.part.port p
    ∃ t : Part, exec (.dataSymbol p n) s = .next { s with part := t } ∧
      (r.rx.phase = .idle ∨ r.rx.phase = .discard → (t.port p).rx = r.rx ∧ (t.port p).counters = r.counters) ∧
      (r.rx.phase = .header ∨ r.rx.phase = .body ∧ r.rx.bytes.length ≠ 22 →
        (r.rx.half = none → (t.port p).rx = { r.rx with half := some n }) ∧
        (∀ h, r.rx.half = some h → r.rx.phase = .body ∨ r.rx.bytes.length ≠ 3 →
          (t.port p).rx = { r.rx with half := none, bytes := r.rx.bytes ++ [h ++ n] })) ∧
      (r.rx.phase = .body → r.rx.bytes.length = 22 →
        (t.port p).rx.phase = .discard ∧ (t.port p).rx.bytes = [] ∧ (t.port p).rx.half = none ∧
        (t.port p).counters = { r.counters with bad := bump16 r.counters.bad }) ∧
      (∀ q, t.rxQ q = s.part.rxQ q ∧ t.relayQ q = s.part.relayQ q) ∧ t.relay.nodes = s.part.relay.nodes

/-- Header time, the second nibble of the fourth byte: the fate of the frame is the first row of 02: Table 1 that
matches its destination and route (a transmitter is free after two FILL symbols, entry 10). A take copy reserves a
place where fewer than 8 are held; a relay copy goes by cut-through where R35 allows, else into a place of the relay queue where fewer than 6 are held, else it is a relay
drop of the arrival port. -/
def Obligations.HeaderTimeDecidesFate : Prop :=
  ∀ (s : State) (p : Port) (h n : Nibble) (dest route source : Byte), s.part.on = true → s.part.mode ≠ .quiet →
    (s.part.port p).state ≠ .down → (s.part.port p).rx.phase = .header →
    (s.part.port p).rx.bytes = [dest, route, source] → (s.part.port p).rx.half = some h →
    let own := dest.toNat = s.part.mgmt.node
    let adopted := dest ≠ 0 ∧ dest.toNat ∈ s.part.tables.adopt.toList ∧
      ¬ ∃ e, s.part.node dest.toNat = some e ∧ e.age < 30
    let here := own ∨ adopted
    let take := here ∨ dest = 63 ∨ dest = 0 ∧ route = 0
    let onPort := fun q : Port => ∃ e, s.part.node dest.toNat = some e ∧ e.port = some q ∧ e.duplicate = false
    let relay := ¬ here ∧ (dest = 63 ∨ dest = 0 ∧ 1 ≤ route.toNat ∧ route.toNat ≤ 15
      ∨ dest ≠ 63 ∧ dest ≠ 0 ∧ ¬ onPort p)
    let out := s.part.port p.other
    let free := s.part.ownQ p.other = [] ∧ (out.tx = .filling 1 ∨ out.tx = .filling 2)
    let cut := s.part.relayModeFrom p = .cut ∧ out.state = .up ∧ free ∧ s.part.relayQ p = [] ∧
      (s.part.port p).mode = out.mode
    let header := if dest = 0 ∧ route ≠ 0 then [0, route - 1, source, h ++ n] else [dest, route, source, h ++ n]
    (∀ k, out.tx = .filling k → k ≤ 2) →
    ∃ t : Part, exec (.dataSymbol p n) s = .next { s with part := t } ∧
      (t.port p).rx.phase = .body ∧ (t.port p).rx.bytes = [dest, route, source, h ++ n] ∧
      (t.port p).rx.mode = (s.part.port p).mode ∧
      (take → (t.port p).rx.take = if (s.part.rxQ p).length < 8 then .reserved else .noPlace) ∧
      (¬ take → (t.port p).rx.take = .none) ∧
      (relay ∧ cut → (t.port p).rx.relay = .cutThrough ∧ (t.port p.other).tx = .sending
        { header := header, payload := [], origin := .cutThrough p, complete := false, abort := none }) ∧
      (relay ∧ ¬ cut ∧ (s.part.relayQ p).length < 6 → (t.port p).rx.relay = .reserved) ∧
      (relay ∧ ¬ cut ∧ 6 ≤ (s.part.relayQ p).length → (t.port p).rx.relay = .none ∧
        (t.port p).counters.relayDrops = bump16 (s.part.port p).counters.relayDrops) ∧
      (¬ relay → (t.port p).rx.relay = .none ∧ (t.port p).counters = (s.part.port p).counters)

/-- END of a GOOD frame: its take copy enters the receive queue behind the entries there, with a loss mark where one
is pending, or, with no place, makes the frame REFUSED and leaves a loss pending; a stored relay copy enters its relay
queue with its rewritten route; a cut-through is completed with the rest of the payload. -/
def Obligations.GoodFrameSettlesItsCopies : Prop :=
  ∀ (s : State) (p : Port), s.part.on = true → s.part.mode ≠ .quiet → (s.part.port p).state ≠ .down →
    (s.part.port p).rx.phase = .body →
    judge (s.part.port p).mode (s.part.port p).rx.bytes (s.part.port p).rx.half = .good →
    let r := s.part.port p
    let x := r.rx
    let byte := fun k => (x.bytes.getD k 0).toNat
    let payload := (x.bytes.drop 4).take (x.bytes.length - 4 - checkLength x.mode)
    let header := if x.bytes.getD 0 0 = 0 ∧ x.bytes.getD 1 0 ≠ 0
      then [0, x.bytes.getD 1 0 - 1, x.bytes.getD 2 0, x.bytes.getD 3 0] else x.bytes.take 4
    ∃ t : Part, exec (.endSymbol p) s = .next { s with part := t } ∧
      (t.port p).rx = Rx.idle ∧
      (x.take = .reserved → t.relay.lossPending.get p = false ∧ (t.port p).counters = r.counters ∧
        t.rxQ p = s.part.rxQ p ++ [
          { dest := byte 0, route := byte 1, source := byte 2, kind := byte 3, payload := payload, arrival := p,
            mode := x.mode, lossMark := s.part.relay.lossPending.get p }]) ∧
      (x.take = .noPlace → t.rxQ p = s.part.rxQ p ∧ t.relay.lossPending.get p = true ∧
        (t.port p).counters = { r.counters with refused := bump16 r.counters.refused }) ∧
      (x.take = .none → t.rxQ p = s.part.rxQ p ∧ (t.port p).counters = r.counters ∧
        t.relay.lossPending.get p = s.part.relay.lossPending.get p) ∧
      (x.relay = .reserved →
        t.relayQ p = s.part.relayQ p ++ [{ header := header, payload := payload, waited := 0 }]) ∧
      (x.relay ≠ .reserved → t.relayQ p = s.part.relayQ p) ∧
      (∀ f, x.relay = .cutThrough → (s.part.port p.other).tx = .sending f →
        (t.port p.other).tx = .sending { f with payload := payload, complete := true }) ∧
      t.rxQ p.other = s.part.rxQ p.other ∧ t.relayQ p.other = s.part.relayQ p.other

/-- END of a GOOD frame teaches the node table its source: an entry there becomes PRESENT on the arrival port with its
role learned if it had none, its pin kept, and a change of port counted as a move; a new node enters a free place, or
with 24 entries held that of the unpinned LOST entry of the greatest age, of the lowest number among equals; every other
entry stays. With no room the table stays and NODE_TABLE_FULL is raised. The working node number is not learned: its
10 s timer restarts. Where no REFRAME waits and no input changes its freshness, a lamp node so heard again is commanded
and its UNREACHABLE channels claim afresh, and a sender so heard again drives its LOST gauges, and those parked for its
loss, by REPEATING, or starts its PARKED ones. That a park ramp given up shows 0 ticks left and keeps its start drive is
the model's choice (entry 38), that a source of 64 to 255 is learned too its reading of R6 (entry 14). -/
def Obligations.GoodFrameTeachesItsSource : Prop :=
  ∀ (s : State) (p : Port), s.part.on = true → s.part.mode ≠ .quiet → (s.part.port p).state ≠ .down →
    (s.part.port p).rx.phase = .body →
    judge (s.part.port p).mode (s.part.port p).rx.bytes (s.part.port p).rx.half = .good →
    let n := ((s.part.port p).rx.bytes.getD 2 0).toNat
    let kind := ((s.part.port p).rx.bytes.getD 3 0).toNat
    let role := if kind = 0x11 then Role.switchReader else if kind = 0x21 then .sender
      else if kind = 0x32 then .lampNode else if kind = 0x51 then .service else .other
    let room := s.part.relay.nodes.length < 24 ∨ ∃ e ∈ s.part.relay.nodes, e.pinned = false ∧ 300 ≤ e.age
    ∃ t : Part, exec (.endSymbol p) s = .next { s with part := t } ∧
      (n = s.part.mgmt.node → t.relay.ownTimer = some 10000 ∧ t.relay.nodes = s.part.relay.nodes) ∧
      (n ≠ s.part.mgmt.node → s.part.node n ≠ none ∨ s.part.relay.nodes.length < 24 →
        ∀ k, k ≠ n → t.node k = s.part.node k) ∧
      (n ≠ s.part.mgmt.node → s.part.node n = none → s.part.nodesOk → s.part.relay.nodes.length = 24 → room →
        ∃ x ∈ s.part.relay.nodes, x.pinned = false ∧ 300 ≤ x.age ∧
          (∀ y ∈ s.part.relay.nodes, y.pinned = false → 300 ≤ y.age →
            y.age < x.age ∨ y.age = x.age ∧ x.node ≤ y.node) ∧
          t.node x.node = none ∧ ∀ k, k ≠ n → k ≠ x.node → t.node k = s.part.node k) ∧
      (n ≠ s.part.mgmt.node → ∀ e, s.part.node n = some e → ∃ e', t.node n = some e' ∧
        e'.age = 0 ∧ e'.port = some p ∧ e'.pinned = e.pinned ∧ e'.expected = e.expected ∧
        e'.role = (if e.role = .none then role else e.role) ∧
        (e.port = none ∨ e.port = some p → e'.moves = e.moves ∧ e'.duplicate = e.duplicate ∧
          e'.window = e.window ∧ e'.quietTime = e.quietTime) ∧
        (e.port = some p.other → e'.quietTime = 0 ∧
          (e.duplicate = true → e'.duplicate = true ∧ e'.moves = 3) ∧
          (e.duplicate = false → e.moves = 0 ∨ 10000 ≤ e.window →
            e'.duplicate = false ∧ e'.moves = 1 ∧ e'.window = 0) ∧
          (e.duplicate = false → e.moves ≠ 0 → e.window < 10000 →
            (e'.duplicate = true ↔ 3 ≤ e.moves + 1) ∧ e'.moves = min 3 (e.moves + 1)))) ∧
      (n ≠ s.part.mgmt.node → s.part.node n = none → room → ∃ e', t.node n = some e' ∧
        e'.age = 0 ∧ e'.port = some p ∧ e'.moves = 0 ∧ e'.duplicate = false ∧ e'.pinned = false ∧ e'.role = role) ∧
      (n ≠ s.part.mgmt.node → s.part.node n = none → ¬ room →
        t.relay.nodes = s.part.relay.nodes ∧ t.active .nodeTableFull = true) ∧
      ((s.part.port p).reframe = false → s.part.power.deferral = false → n ≠ s.part.mgmt.node → t.node n ≠ none →
        (∀ i, (t.input i).fresh = (s.part.input i).fresh) →
        let u := s.part
        (∀ r, u.lampNode n = some r → r.reachable = false → (t.port p).state = .up → ∃ r', t.lampNode n = some r' ∧
          r'.reachable = true ∧
          (u.mode ≠ .held → (t.ownQ p).length < 8 → ∃ lit dim duty,
            { dest := n, source := u.mgmt.node, body := .lampCommand lit dim duty } ∈ t.ownQ p) ∧
          ∀ ch : Fin 25, 17 ≤ ch.val → 0 < (u.chanCfg ch).nominal → (u.chanCfg ch).node = n →
            (u.chan ch).state = .unreachable → u.grant ch = 0 → u.claimOf ch = none →
            r'.refresh ≠ none ∧ (t.chan ch).demand = (u.chan ch).demand ∧
            ((t.chan ch).state = .on ∧ t.grant ch = (u.chanCfg ch).nominal ∧ t.claimOf ch = none ∨
              (t.chan ch).state = .waiting ∧ t.grant ch = 0 ∧ t.claimOf ch =
                some { chan := ch, amount := (u.chanCfg ch).nominal, cls := u.classOf ch, shed := false })) ∧
        (∀ g, (u.gaugeCfg g).source = .sender → (u.gaugeCfg g).node = n →
          let x := u.gauge g
          (x.state = .lost ∨ x.state = .parking ∧ x.lostMark = true →
            t.gauge g = { x with state := .repeating, store := [], last := none, rampLeft := 0, lostMark := false }) ∧
          (x.state = .parking → x.lostMark = false → t.gauge g = x) ∧
          (x.state = .parked → (t.gauge g).lostMark = false ∧
            ((t.gauge g).state = .parked ↔ ¬ (u.mode = .running ∧ 0 < (u.gaugeCfg g).nominal)))))

/-- The good, bad and alternate counts and the port state at the END of a frame with no REFRAME pending: a good frame
raises the good count, which takes a SEEKING port UP at 2; a bad frame raises the bad count, which takes an UP port to
SEEKING at 3; on an AUTO port in SEEKING the fourth alternate frame in a row changes the check mode. All three counts
are 0 after each such change. FRONT_DOWN or REAR_DOWN stands as the state, and each change sets the changed flag: an
entry to UP that a pending REFRAME undoes in the same event, and a fourth alternate frame it undoes, leave it set (the
model's choice, entry 35). -/
def Obligations.FrameCountsMoveThePort : Prop :=
  ∀ (s : State) (p : Port), s.part.on = true → s.part.mode ≠ .quiet → (s.part.port p).state ≠ .down →
    (s.part.port p).rx.phase = .body →
    let r := s.part.port p
    let down := match p with | .front => Cond.frontDown | .rear => .rearDown
    let other := if r.mode = .check16 then CheckMode.sum8 else .check16
    let good := judge r.mode r.rx.bytes r.rx.half = .good
    let alternate := judge other r.rx.bytes r.rx.half = .good ∧ r.lock = .auto ∧ r.state = .seeking
    let badCount := min 3 (r.bad + 1)
    let altCount := if alternate then r.alt + 1 else 0
    ∃ t : Part, exec (.endSymbol p) s = .next { s with part := t } ∧
      (r.reframe = false →
        (good → r.state = .seeking → 1 ≤ r.good →
          (t.port p).state = .up ∧ (t.port p).mode = r.mode ∧
          (t.port p).good = 0 ∧ (t.port p).bad = 0 ∧ (t.port p).alt = 0) ∧
        (good → ¬ (r.state = .seeking ∧ 1 ≤ r.good) →
          (t.port p).state = r.state ∧ (t.port p).mode = r.mode ∧
          (t.port p).good = min 3 (r.good + 1) ∧ (t.port p).bad = 0 ∧ (t.port p).alt = 0) ∧
        (¬ good → r.state = .up → badCount = 3 →
          (t.port p).state = .seeking ∧ (t.port p).good = 0 ∧ (t.port p).bad = 0 ∧ (t.port p).alt = 0 ∧
          (r.heldLock = none → (t.port p).mode = r.mode) ∧
          (∀ f, r.tx = .sending f → ∃ f', (t.port p).tx = .sending f' ∧ f'.abort ≠ none)) ∧
        (¬ good → ¬ (r.state = .up ∧ badCount = 3) → 4 ≤ altCount →
          (t.port p).state = r.state ∧ (t.port p).mode = other ∧
          (t.port p).good = 0 ∧ (t.port p).bad = 0 ∧ (t.port p).alt = 0) ∧
        (¬ good → ¬ (r.state = .up ∧ badCount = 3) → altCount < 4 →
          (t.port p).state = r.state ∧ (t.port p).mode = r.mode ∧
          (t.port p).good = 0 ∧ (t.port p).bad = badCount ∧ (t.port p).alt = altCount)) ∧
      (t.active down = true ↔ (t.port p).state ≠ .up) ∧ (t.active down ≠ s.part.active down → t.changed down = true) ∧
      (r.reframe = true → good → r.state = .seeking → 1 ≤ r.good → s.part.active down = true →
        (t.port p).state = .seeking ∧ t.changed down = true) ∧
      (r.reframe = true → ¬ good → r.mode = .check16 → 4 ≤ altCount → s.part.active .legacySegment = false →
        t.changed .legacySegment = true)

/-- END of a bad frame (SHORT, LONG or BAD_CHECK): the bad counter goes up by 1, a cut-through is to end with ABORT,
and the queues and the node table stay as they are. A frame is bad when too short for its check, when it has 22 whole
bytes in SUM8 mode, half a byte left over, a check that fails, or a source of 0 or 63. -/
def Obligations.BadFrameIsDropped : Prop :=
  ∀ (s : State) (p : Port), s.part.on = true → s.part.mode ≠ .quiet → (s.part.port p).state ≠ .down →
    (s.part.port p).rx.phase = .body →
    let r := s.part.port p
    let b := r.rx.bytes
    b.length < 4 + checkLength r.mode ∨ r.mode = .sum8 ∧ b.length = 22 ∨ r.rx.half ≠ none
      ∨ checkPasses r.mode b = false ∨ (b.getD 2 0).toNat = 0 ∨ (b.getD 2 0).toNat = 63 →
    ∃ t : Part, exec (.endSymbol p) s = .next { s with part := t } ∧
      (t.port p).rx = Rx.idle ∧
      (t.port p).counters = { r.counters with bad := bump16 r.counters.bad } ∧
      (∀ f, r.rx.relay = .cutThrough → (s.part.port p.other).tx = .sending f →
        (t.port p.other).tx = .sending { f with abort := some .badFrame }) ∧
      (∀ q, t.rxQ q = s.part.rxQ q ∧ t.relayQ q = s.part.relayQ q) ∧
      t.relay.nodes = s.part.relay.nodes ∧ t.relay.ownTimer = s.part.relay.ownTimer

/-- ABORT, FILL and an END outside BODY: ignored between frames; in DISCARD only END returns the assembly to IDLE; a
frame in HEADER ends as FRAGMENT and, by ABORT or FILL, one in BODY as ABORTED, each counted by 1, with a cut-through
to end with ABORT. With no REFRAME pending neither outcome changes the port's state, mode or counts. -/
def Obligations.BreakEndsFrame : Prop :=
  ∀ (s : State) (p : Port), ∀ c ∈ [Instr.endSymbol p, .abortSymbol p, .fillSymbol p],
    s.part.on = true → s.part.mode ≠ .quiet → (s.part.port p).state ≠ .down →
    let r := s.part.port p
    (c = .endSymbol p → r.rx.phase ≠ .body) →
    ∃ t : Part, exec c s = .next { s with part := t } ∧
      (r.rx.phase = .idle → (t.port p).rx = r.rx ∧ (t.port p).counters = r.counters) ∧
      (r.rx.phase = .discard → (t.port p).counters = r.counters ∧
        (t.port p).rx = if c = .endSymbol p then Rx.idle else r.rx) ∧
      (r.rx.phase = .header → (t.port p).rx = Rx.idle ∧
        (t.port p).counters = { r.counters with fragments := bump16 r.counters.fragments }) ∧
      (r.rx.phase = .body → (t.port p).rx = Rx.idle ∧
        (t.port p).counters = { r.counters with aborted := bump16 r.counters.aborted } ∧
        (∀ f, r.rx.relay = .cutThrough → (s.part.port p.other).tx = .sending f →
          (t.port p.other).tx = .sending { f with abort := some .badFrame })) ∧
      (r.reframe = false → (t.port p).state = r.state ∧ (t.port p).mode = r.mode ∧ (t.port p).good = r.good ∧
        (t.port p).bad = r.bad ∧ (t.port p).alt = r.alt) ∧
      (∀ q, t.rxQ q = s.part.rxQ q ∧ t.relayQ q = s.part.relayQ q) ∧ t.relay.nodes = s.part.relay.nodes

/-- A port that is quiet ends its frame in reception and goes DOWN: counts at 0, quiet timer stopped, its own transmit
queue discarded, no REFRAME waiting, its FRONT_DOWN or REAR_DOWN active, with the changed flag set where it was not. The
receive and relay queues stay. -/
def Obligations.QuietPortGoesDown : Prop :=
  ∀ (s : State) (p : Port), s.part.on = true → (s.part.port p).state ≠ .down → (s.part.port p).quiet ≠ none →
    let r := s.part.port p
    let down := match p with | .front => Cond.frontDown | .rear => .rearDown
    ∃ t : Part, exec (.portQuiet p) s = .next { s with part := t } ∧
      t.active down = true ∧ (s.part.active down = false → t.changed down = true) ∧
      (t.port p).state = .down ∧ (t.port p).good = 0 ∧ (t.port p).bad = 0 ∧ (t.port p).alt = 0 ∧
      (t.port p).quiet = none ∧ (t.port p).reframe = false ∧ (t.port p).rx = Rx.idle ∧ t.ownQ p = [] ∧
      (t.port p).counters = (match r.rx.phase with
        | .header => { r.counters with fragments := bump16 r.counters.fragments }
        | .body => { r.counters with aborted := bump16 r.counters.aborted }
        | .idle | .discard => r.counters) ∧
      (t.port p.other).state = (s.part.port p.other).state ∧
      (∀ q, t.rxQ q = s.part.rxQ q ∧ t.relayQ q = s.part.relayQ q) ∧ t.relay.nodes = s.part.relay.nodes

/-! ### Transmitters and the frame relay -/

/-- TRANSMIT_START at a FILLING transmitter of an UP port (entry 10) starts the oldest URGENT own entry, else the oldest
entry of the relay queue toward the port, else the oldest own entry, which is then a reply; with nothing waiting it stays
free. The frame has its content of that moment, but for the source number, which is that of the moment it was queued
(the model's reading, entry 18), and the oldest held reply, where its port is not DOWN and has a place free, takes
the place of a reply that leaves. -/
def Obligations.TransmitStartChooses : Prop :=
  ∀ (s : State) (p : Port) (k : Nat), s.part.on = true → (s.part.port p).state = .up →
    (s.part.port p).tx = .filling k → s.part.calm →
    let u := s.part
    let own := u.ownQ p
    let relayed := u.relayQ p.other
    let header := fun (e : OwnEntry) (kind : Byte) => [byte e.dest, (0 : Byte), byte e.source, kind]
    let frame := fun e : OwnEntry => TxState.sending
      (match e.body with
        | .lampCommand lit dim duty =>
          { header := header e 0x31, payload := [lit, dim, byte duty], origin := .lampCommand, complete := true,
            abort := none }
        | .notice =>
          { header := header e 0x53
            payload := setBytes u.mgmt.active ++ setBytes u.mgmt.changed
              ++ [byte (modeCode u.mode), byte (ignitionCode u.ignition)]
            origin := .notice, complete := true, abort := none }
        | .reply bs =>
          { header := header e 0x52, payload := bs, origin := .reply, complete := true, abort := none })
    ∃ t : Part, exec (.transmitStart p) s = .next { s with part := t } ∧
      (∀ pre e post, own = pre ++ e :: post → (∀ x ∈ pre, x.urgent = false) → e.urgent = true →
        (t.port p).tx = frame e ∧ t.ownQ p = pre ++ post ∧ t.relayQ p.other = relayed) ∧
      ((∀ x ∈ own, x.urgent = false) →
        (∀ e q, relayed = e :: q →
          (t.port p).tx = .sending { header := e.header, payload := e.payload, origin := .relayed p.other,
                                     complete := true, abort := none } ∧
          t.relayQ p.other = q ∧ t.ownQ p = own) ∧
        (∀ e q, relayed = [] → own = e :: q → (t.port p).tx = frame e ∧
          (u.mgmt.hold = [] → t.ownQ p = q) ∧
          (∀ r rs, u.mgmt.hold = r :: rs → (∀ x ∈ q, x.isReply = false) →
            (∀ x ∈ u.ownQ p.other, x.isReply = false) → (u.port r.arrival).state ≠ .down →
            (if r.arrival = p then q else u.ownQ r.arrival).length < 8 →
            t.mgmt.hold = rs ∧
            { dest := r.dest, source := r.source, body := .reply r.payload } ∈ t.ownQ r.arrival)) ∧
        (relayed = [] → own = [] → (t.port p).tx = .filling 2 ∧ t.ownQ p = [])) ∧
      t.port p.other = u.port p.other ∧ t.relayQ p = u.relayQ p ∧ (∀ q, t.rxQ q = u.rxQ q) ∧ SameOutputs u t

/-- TRANSMIT_END ends a frame that is all there with its check and END, one to be abandoned with ABORT and no check; a
frame that still arrives goes on. A relay copy that its port's fall cut short is a relay drop of its arrival port. A
NOTICE that is sent clears the notice owed mark. What went out stands in the model's own record (entry 11). -/
def Obligations.TransmitEndPutsFrameOnLine : Prop :=
  ∀ (s : State) (p : Port) (f : TxFrame), s.part.on = true → (s.part.port p).tx = .sending f →
    let u := s.part
    let r := u.port p
    let sent := f.header ++ f.payload
    ∃ t : Part, exec (.transmitEnd p) s = .next { s with part := t } ∧
      (f.abort = none → f.complete = true → (t.port p).tx = .filling 0 ∧
        (t.port p).lastSent = some { bytes := sent ++ checkBytes r.mode sent, aborted := false } ∧
        (∀ q, (t.port q).counters = (u.port q).counters)) ∧
      (f.abort ≠ none → (t.port p).tx = .filling 0 ∧ (t.port p).lastSent = some { bytes := sent, aborted := true }) ∧
      (∀ a, f.abort = some .portLeft → f.origin = .relayed a ∨ f.origin = .cutThrough a →
        (t.port a).counters =
          { (u.port a).counters with relayDrops := bump16 (u.port a).counters.relayDrops }) ∧
      (f.abort = none → f.complete = false → t.port p = r) ∧
      (f.abort = none → f.complete = true → f.origin = .notice → u.calm → t.mgmt.owed = false) ∧
      (t.port p.other).tx = (u.port p.other).tx ∧ (∀ q, t.rxQ q = u.rxQ q ∧ t.relayQ q = u.relayQ q) ∧
      t.relay.nodes = u.relay.nodes ∧ t.inputs = u.inputs

/-- The timers of the frame relay, each command being its expiry (the model's choice, entry 1): the oldest relay-queue
entry that has waited 500 ms is discarded, counted as a relay drop and raises QUEUE_LOSS; a DUPLICATE entry with no move
for 10 s loses its mark and its moves and keeps its window and quiet time (the model's reading of R27, entry 16); the
own-number timer stops. Nothing else changes of the ports, the node table, the receive and relay queues, the inputs, the
tables, the store, the window and the request slot; own transmit queues, the reply hold, changed flags and the notice
owed mark are left open. -/
def Obligations.RelayTimersAct : Prop :=
  ∀ s : State, s.part.on = true →
    let u := s.part
    (∀ p e q, u.relayQ p = e :: q → ∃ t : Part, exec (.relayAgeOut p) s = .next { s with part := t } ∧
      t.relayQ p = q ∧ t.active .queueLoss = true ∧
      (t.port p).counters = { (u.port p).counters with relayDrops := bump16 (u.port p).counters.relayDrops } ∧
      Undisturbed ((countDrop p (u.setRelayQ p q)).markActive .queueLoss true) t) ∧
    (∀ n, ∃ t : Part, exec (.duplicateClear n) s = .next { s with part := t } ∧
      t.relay.nodes = u.relay.nodes.map (fun e =>
        if e.node = n ∧ e.duplicate = true then { e with duplicate := false, moves := 0 } else e) ∧
      Undisturbed (u.setNodes t.relay.nodes) t) ∧
    (u.relay.ownTimer ≠ none → ∃ t : Part, exec .ownNumberTimerExpiry s = .next { s with part := t } ∧
      t.relay.ownTimer = none ∧ Undisturbed { u with relay := { u.relay with ownTimer := none } } t)

/-- A step of the node ages: every age goes up by 1 and holds at 65535. An input is then FRESH exactly while its
reader's entry is PRESENT, below 30 steps, on an UP port; an input that becomes STALE keeps its value and loses its
candidate, one that becomes FRESH only changes its mark. A lamp node is reachable exactly while it is so too. Where no
input changes its freshness, a channel of a lamp node that is lost becomes UNREACHABLE and unlit, its claim withdrawn and
its grant released, one OFF or in FAULT staying so; a gauge whose sender is LOST or unknown loses its samples and goes
LOST, or to PARKING or PARKED, by its lost behaviour and type, a SETTLING one to PARKED, with its lost mark set.
SENDER_LOST is active while a lost mark is set. Not the manual's but the model's: all that crosses an age limit in the
step is made known in one go (entry 17), and the lost nodes and gauges of it act before one granting pass (entry 30); the
lost behaviour and the rest drive are those of the figures in use (entry 22); of a gauge that loses its sender the curve
drive keeps its figure (entry 50) and the start drive of a ramp does (entry 38); the last sample of a SETTLING one goes
with its store (entry 61). -/
def Obligations.NodeAgeStepAges : Prop :=
  ∀ s : State, s.part.on = true →
    let u := s.part
    let heard := fun n : Nat => ∃ e q, u.node n = some e ∧ bump16 e.age < 30 ∧ e.port = some q ∧ (u.port q).state = .up
    ∃ t : Part, exec .nodeAgeStep s = .next { s with part := t } ∧
      t.relay.nodes = u.relay.nodes.map (fun e => { e with age := bump16 e.age }) ∧
      (∀ i, (t.input i).fresh = true ↔ ∃ m, u.mapEntry i = some m ∧ heard m.source) ∧
      (∀ i, (u.input i).fresh = (t.input i).fresh → t.input i = u.input i) ∧
      (∀ i, (u.input i).fresh = true → (t.input i).fresh = false →
        t.input i = { u.input i with fresh := false, candidate := none, count := 0, resync := true }) ∧
      (∀ i, (u.input i).fresh = false → (t.input i).fresh = true → t.input i = { u.input i with fresh := true }) ∧
      (∀ r ∈ t.channels.lampNodes, r.reachable = true ↔ heard r.node) ∧
      (u.power.deferral = false → (t.active .senderLost = true ↔ ∃ g, (t.gauge g).lostMark = true)) ∧
      (u.power.deferral = false → (∀ i, (t.input i).fresh = (u.input i).fresh) →
        (∀ ch : Fin 25, 17 ≤ ch.val → 0 < (u.chanCfg ch).nominal → ¬ heard (u.chanCfg ch).node →
          (∃ r ∈ u.channels.lampNodes, r.node = (u.chanCfg ch).node ∧ r.reachable = true) →
          let c := u.chan ch
          (c.state = .waiting ∨ c.state = .on ∨ c.state = .shed → t.lit ch = false ∧ t.grant ch = 0 ∧
            t.claimOf ch = none ∧
            t.chan ch = { c with state := .unreachable, bulbOut := false, measured := 0, overload := none }) ∧
          (c.state = .off ∨ c.state = .fault → u.claimOf ch = none → (t.chan ch).state = c.state)) ∧
        (∀ g, (u.gaugeCfg g).source = .sender →
          (¬ ∃ e, u.node (u.gaugeCfg g).node = some e ∧ bump16 e.age < 300) →
          let x := u.gauge g
          let parks := t.grant (gaugeChan g) = 0 ∧ t.claimOf (gaugeChan g) = none ∧
            t.gauge g = { x with state := .parked, store := [], last := none, output := 0, drive := u.restOf g
                                 rampLeft := 0, lostMark := true }
          (x.state = .tracking ∨ x.state = .repeating →
            (x.lost = .hold → t.gauge g = { x with state := .lost, store := [], last := none, lostMark := true }) ∧
            (x.lost = .park → (u.gaugeCfg g).type = .coil →
              t.gauge g = { x with state := .parking, store := [], last := none, rampStart := x.drive, rampLeft := 15
                                   lostMark := true }) ∧
            (x.lost = .hold ∨ (u.gaugeCfg g).type = .coil → u.claimOf (gaugeChan g) = none →
              t.grant (gaugeChan g) = u.grant (gaugeChan g)) ∧
            (x.lost = .park → (u.gaugeCfg g).type = .thermal → parks)) ∧
          (x.state = .settling → u.claimOf (gaugeChan g) = none ∨
            (∀ r ∈ u.channels.lampNodes, r.reachable = true ↔ heard r.node) → parks) ∧
          (x.state = .lost → t.gauge g = { x with lostMark := true }) ∧
          (x.state = .parked ∨ x.state = .parking → t.gauge g = x))) ∧
      t.relay.ownTimer = u.relay.ownTimer ∧ (∀ q, t.rxQ q = u.rxQ q ∧ t.relayQ q = u.relayQ q) ∧
      t.tables = u.tables ∧ t.mgmt.node = u.mgmt.node

/-! ### Dispatch -/

/-- Dispatch takes the oldest entry of the receive queue whose turn it is: the one that is not empty, or, of two, the
one not taken from last. The entry's kind and op give the command; its loss mark raises QUEUE_LOSS. A frame with no
consumer counts as of unknown kind on its arrival port. Any other dispatch command leaves the part as it is: this last
clause is the model's choice (entries 2 and 8), no rule of the manual. -/
def Obligations.DispatchTakesNextEntry : Prop :=
  ∀ (s : State) (e : RxEntry) (q : List RxEntry), s.part.awake = true →
    let u := s.part
    let p := if u.rxQ .front = [] then Port.rear else if u.rxQ .rear = [] then .front else u.relay.lastTaken.other
    u.rxQ p = e :: q →
    (∃ t : Part, exec e.command s = .next { s with part := t } ∧
      t.rxQ p = q ∧ t.rxQ p.other = u.rxQ p.other ∧ t.relay.lastTaken = p ∧ t.relayQ .front = u.relayQ .front ∧
      t.relayQ .rear = u.relayQ .rear ∧
      (e.lossMark = true → e.command ≠ .clear → t.active .queueLoss = true) ∧
      (e.command = .unknownKind → (t.port e.arrival).counters =
        { (u.port e.arrival).counters with unknownKind := bump16 (u.port e.arrival).counters.unknownKind })) ∧
    (∀ c ∈ dispatchCommands, c ≠ e.command → exec c s = .next s)

/-- A SWITCH_STATE frame at an UP port reaches every FRESH input fed by a slot it carries: a value above the limit is
counted, the first after a resync is taken at once, one equal to the value drops the candidate, any other becomes the
value after as many equal reports as the debounce asks. Other inputs stay; by a port that is not UP none changes. -/
def Obligations.SwitchReportMovesInputs : Prop :=
  ∀ (s : State) (e : RxEntry), s.part.awake = true → s.part.nextEntry = some e → e.kind = 0x11 → e.dest ≠ 0 →
    let u := s.part
    let reaches := fun (i : Fin 32) (m : MapCfg) =>
      u.mapEntry i = some m ∧ m.source = e.source ∧ m.slot < e.payload.length ∧ (u.input i).fresh = true
    ∃ t : Part, exec .switchState s = .next { s with part := t } ∧
      ((u.port e.arrival).state ≠ .up → t.inputs = u.inputs) ∧
      (∀ i, (¬ ∃ m, reaches i m) → t.input i = u.input i) ∧
      (∀ i m, (u.port e.arrival).state = .up → reaches i m →
        let x := u.input i
        let v := (e.payload.getD m.slot 0).toNat
        let n := if x.candidate = some v then x.count + 1 else 1
        (m.limit < v → t.input i = { x with overLimit := if x.overLimit < 255 then x.overLimit + 1 else x.overLimit }) ∧
        (v ≤ m.limit → x.resync = true →
          t.input i = { x with value := v, candidate := none, count := 0, resync := false }) ∧
        (v ≤ m.limit → x.resync = false → v = x.value → t.input i = { x with candidate := none, count := 0 }) ∧
        (v ≤ m.limit → x.resync = false → v ≠ x.value → n = m.debounce →
          t.input i = { x with value := v, candidate := none, count := 0 }) ∧
        (v ≤ m.limit → x.resync = false → v ≠ x.value → n ≠ m.debounce →
          t.input i = { x with candidate := some v, count := n })) ∧
      Undisturbed ((takeEntry u).setInputs t.inputs) t

/-- A SENDER_REPORT frame of 1 to 8 slots gives each TRACKING or REPEATING SENDER gauge of its source the slot the gauge
names: a reading up to 1023 or an open sender joins the sample store; at a full store the four oldest samples go first,
which is a slip with GAUGE_SLIP; any other value changes nothing. Other gauges and every other output stay. -/
def Obligations.SenderReportFeedsGauges : Prop :=
  ∀ (s : State) (e : RxEntry), s.part.awake = true → s.part.nextEntry = some e → e.kind = 0x21 → e.dest ≠ 0 →
    s.part.power.deferral = false →
    let u := s.part
    let slots := e.payload.length
    let fits := slots ≠ 0 ∧ slots % 2 = 0 ∧ slots ≤ 16
    let reaches := fun g : Fin 4 => fits ∧ (u.gaugeCfg g).source = .sender ∧ (u.gaugeCfg g).node = e.source ∧
      2 * (u.gaugeCfg g).slot + 1 < slots ∧ ((u.gauge g).state = .tracking ∨ (u.gauge g).state = .repeating)
    ∃ t : Part, exec .senderReport s = .next { s with part := t } ∧
      (∀ g, ¬ reaches g → t.gauge g = u.gauge g) ∧
      (∀ g, reaches g →
        let r := u.gauge g
        let at_ := 2 * (u.gaugeCfg g).slot
        let v := 256 * (e.payload.getD at_ 0).toNat + (e.payload.getD (at_ + 1) 0).toNat
        (1023 < v → v ≠ 65535 → t.gauge g = r) ∧
        (∀ x, v ≤ 1023 ∧ x = .reading v ∨ v = 65535 ∧ x = .open_ →
          (r.store.length < 8 → t.gauge g = { r with store := r.store ++ [x] }) ∧
          (r.store.length = 8 → t.active .gaugeSlip = true ∧
            t.gauge g = { r with store := r.store.drop 4 ++ [x], slip := !r.slip, lastSlip := .drop
                                 slipCount := if r.slipCount < 255 then r.slipCount + 1 else r.slipCount }))) ∧
      t.channels = u.channels ∧ t.arbiter = u.arbiter ∧ t.lamps = u.lamps ∧ t.fan = u.fan ∧
      Undisturbed (takeEntry u) t

/-- A LAMP_STATUS frame of a lamp node records its statuses and supply and acts on the node's remote channels lit at its
arrival (entry 29): LIT_OK clears bulb_out, OPEN sets it, SHORT takes the channel to a latched SHORT fault with its
grant given back. A shorter frame, or one of another node, changes no output. -/
def Obligations.LampStatusReachesChannels : Prop :=
  ∀ (s : State) (e : RxEntry), s.part.awake = true → s.part.nextEntry = some e → e.kind = 0x32 → e.dest ≠ 0 →
    s.part.power.deferral = false →
    let u := s.part
    let b := fun k => e.payload.getD k 0
    ∃ t : Part, exec .lampStatus s = .next { s with part := t } ∧
      (e.payload.length < 4 ∨ u.lampNode e.source = none → SameOutputs u t) ∧
      (4 ≤ e.payload.length → ∀ r, u.lampNode e.source = some r →
        (∃ r', t.lampNode e.source = some r' ∧ r'.reachable = r.reachable ∧ r'.status = some (b 0, b 1) ∧
          r'.supply = 256 * (b 2).toNat + (b 3).toNat) ∧
        (∀ ch : Fin 25, 17 ≤ ch.val → 0 < (u.chanCfg ch).nominal → (u.chanCfg ch).node = e.source →
          u.lit ch = true →
          let k := (u.chanCfg ch).output
          let st := (if k < 4 then b 0 else b 1).toNat / 4 ^ (k % 4) % 4
          (st = 1 → t.lit ch = true ∧ (t.chan ch).bulbOut = false) ∧
          (st = 2 → t.lit ch = true ∧ (t.chan ch).bulbOut = true) ∧
          (st = 3 → t.lit ch = false ∧ t.grant ch = 0 ∧ t.chan ch =
            { u.chan ch with state := .fault, fault := .short, latched := true, bulbOut := false, retryTimer := none
                             measured := 0, overload := none }))) ∧
      Undisturbed (takeEntry u) t

/-! ### Requests -/

/-- A request that finds the slot full, or a reply queued or held, is dropped: it is counted and nothing else comes of
it. One whose op its source may not ask for is answered NOT_ALLOWED, one whose data does not fit BAD_LENGTH, one
shorter than 3 bytes BAD_LENGTH, one that names no op UNKNOWN_OP. -/
def Obligations.RequestsTurnedAway : Prop :=
  ∀ (s : State) (e : RxEntry), s.part.awake = true → s.part.nextEntry = some e → e.kind = 0x51 →
    let u := s.part
    let v := takeEntry u
    let plain := fun st : Status =>
      ({ status := st, table := e.request.table, index := e.request.index, data := [] } : Answer)
    (u.mgBusy = true → ∃ t : Part, exec e.command s = .next { s with part := t } ∧
      t.mgmt.dropped = bump16 u.mgmt.dropped ∧
      Undisturbed { v with mgmt := { v.mgmt with dropped := t.mgmt.dropped } } t ∧
      (u.power.deferral = false → SameOutputs u t)) ∧
    (∀ r ∈ opRows, u.requests r e → u.mgBusy = false →
      (r.permitted u e = false → ∃ t : Part, exec r.command s = .next { s with part := t } ∧
        t.answered e.request (plain .notAllowed) ∧ Undisturbed v t) ∧
      (r.permitted u e = true → r.lengthOk (e.payload.length - 3) = false →
        ∃ t : Part, exec r.command s = .next { s with part := t } ∧
          t.answered e.request (plain .badLength) ∧ Undisturbed v t)) ∧
    (u.mgBusy = false → e.payload.length < 3 → ∃ t : Part, exec .unknownOp s = .next { s with part := t } ∧
      t.answered e.request (plain .badLength) ∧ Undisturbed v t) ∧
    (u.mgBusy = false → 3 ≤ e.payload.length → (e.payload.getD 0 0).toNat = 0 ∨ 13 < (e.payload.getD 0 0).toNat →
      ∃ t : Part, exec .unknownOp s = .next { s with part := t } ∧
        t.answered e.request (plain .unknownOp) ∧ Undisturbed v t)

/-- READ, SELECT and READ_NEXT: a table id that is no table is answered BAD_TABLE, an index past its end BAD_INDEX. Else
READ answers the whole entries from the index on, as many as fit in 13 bytes; SELECT sets the window; READ_NEXT reads
at the window and moves it past the entries answered. What is read is the part as the request finds it, before the
request restarts an idle count: that order is the model's choice (entry 52). -/
def Obligations.ReadOpsAnswerEntries : Prop :=
  ∀ (s : State) (e : RxEntry),
    let v := takeEntry s.part
    let q := e.request
    let plain := fun st : Status => ({ status := st, table := q.table, index := q.index, data := [] } : Answer)
    let outcome := fun (c : Instr) (table index : Nat) (done : List (List Byte) → Part → Prop) =>
      ∃ t : Part, exec c s = .next { s with part := t } ∧
        (v.tableLength table = none → t.answered q (plain .badTable) ∧ Undisturbed v t) ∧
        (∀ n, v.tableLength table = some n → n ≤ index → t.answered q (plain .badIndex) ∧ Undisturbed v t) ∧
        (∀ n, v.tableLength table = some n → index < n → ∃ k, index + k ≤ n ∧
          let es := (List.range k).map fun j => entryBytes v table (index + j)
          es.flatten.length ≤ 13 ∧
          (index + k < n → 13 < es.flatten.length + (entryBytes v table (index + k)).length) ∧ done es t)
    (s.part.serves .read e → outcome .read q.table q.index fun es t =>
      t.answered q { status := .done, table := q.table, index := q.index, data := es.flatten } ∧ Undisturbed v t) ∧
    (s.part.serves .select e → outcome .select q.table q.index fun _ t =>
      t.answered q (plain .done) ∧ Undisturbed (setWindow q.table q.index v) t) ∧
    (s.part.serves .readNext e → outcome .readNext v.mgmt.windowTable v.mgmt.windowIndex fun es t =>
      t.answered q { status := .done, table := v.mgmt.windowTable, index := v.mgmt.windowIndex, data := es.flatten } ∧
      Undisturbed (setWindow v.mgmt.windowTable (v.mgmt.windowIndex + es.length) v) t)

/-- WRITE and WRITE_NEXT: tested in the order BAD_TABLE, BUSY while a COMMIT is in progress, BAD_LENGTH, BAD_INDEX with
nothing written; else the entries are written in index order, each as one event, until one is refused. DONE carries the
first index, a refusal the index of the entry refused (that table id is the window's for WRITE_NEXT, entry 42). WRITE_NEXT
does so at the window and moves it past the entries
written; WRITE leaves it. -/
def Obligations.WriteOpsWriteInOrder : Prop :=
  ∀ (s : State) (e : RxEntry),
    let v := takeEntry s.part
    let q := e.request
    let plain := fun st : Status => ({ status := st, table := q.table, index := q.index, data := [] } : Answer)
    let outcome := fun (c : Instr) (table index : Nat) (window : Nat → Part → Part) =>
      ∃ t : Part, exec c s = .next { s with part := t } ∧
        let size := entrySize table
        let count := q.data.length / size
        let known := 1 ≤ table ∧ table ≤ 11
        let idle := v.mgmt.commit = none
        let whole := q.data.length % size = 0
        let inside := index + count ≤ (v.tableLength table).getD 0
        (¬ known → t.answered q (plain .badTable) ∧ Undisturbed v t) ∧
        (known → ¬ idle → t.answered q (plain .busy) ∧ Undisturbed v t) ∧
        (known → idle → ¬ whole → t.answered q (plain .badLength) ∧ Undisturbed v t) ∧
        (known → idle → whole → ¬ inside → t.answered q (plain .badIndex) ∧ Undisturbed v t) ∧
        (known → idle → whole → inside → ∃ (n : Nat) (w : Nat → Part), n ≤ count ∧ w 0 = v ∧
          (∀ k < n, writeEntry table (index + k) ((q.data.drop (k * size)).take size) (w k) = .ok (w (k + 1))) ∧
          Undisturbed (window n (w n)) t ∧
          (n = count → t.answered q { status := .done, table := table, index := index, data := [] }) ∧
          (n < count → ∃ st,
            writeEntry table (index + n) ((q.data.drop (n * size)).take size) (w n) = .error st ∧
            t.answered q { status := st, table := table, index := index + n, data := [] }))
    (s.part.serves .write e → outcome .write q.table q.index fun _ w => w) ∧
    (s.part.serves .writeNext e → outcome .writeNext v.mgmt.windowTable v.mgmt.windowIndex fun n w =>
      setWindow v.mgmt.windowTable (v.mgmt.windowIndex + n) w)

/-- HOLD: behind a COMMIT it waits in the pending slot; in HELD it is answered DONE with nothing done; else every lamp
channel goes OFF, the fan STOPPED, every gauge PARKED at its rest drive with its slip record kept, the budget empty at
a limit of 0.0 A and lamp logic dark, a DORMANT entry is given up, a SLEEP that waits is answered REFUSED, and HOLD is
answered DONE. That HOLD waits behind a COMMIT in HELD too is the model's choice (entry 56); the rest drive is that of the
figures in use (entry 22). -/
def Obligations.HoldStopsTheOutputs : Prop :=
  ∀ (s : State) (e : RxEntry), s.part.serves .hold e →
    let u := s.part
    let v := takeEntry u
    let q := e.request
    let done := ({ status := .done, table := q.table, index := q.index, data := [] } : Answer)
    ∃ t : Part, exec .hold s = .next { s with part := t } ∧
      (u.mgmt.commit ≠ none → t.mgmt.slot = some q ∧ t.mode = u.mode ∧ SameOutputs u t ∧
        Undisturbed { v with mgmt := { v.mgmt with slot := some q } } t) ∧
      (u.mgmt.commit = none → u.mode = .held → t.answered q done ∧ SameOutputs u t ∧ Undisturbed v t) ∧
      (u.mgmt.commit = none → u.mode ≠ .held → t.answered q done ∧ Undisturbed v t ∧
        t.mode = .held ∧ t.power.deferral = false ∧ t.power.reference = true ∧ t.mgmt.sleep = none ∧
        t.power.settled = u.power.settled ∧ t.power.quiet = none ∧
        (∀ ch, t.chan ch = Chan.off) ∧ t.arbiter = Arbiter.empty ∧ t.lamps = Lamps.dark ∧ t.fan = Fan.stopped ∧
        (∀ g, (t.gauge g).state = .parked ∧ (t.gauge g).output = 0 ∧ (t.gauge g).store = [] ∧
          (t.gauge g).drive = u.restOf g ∧ (t.gauge g).slip = (u.gauge g).slip ∧
          (t.gauge g).lastSlip = (u.gauge g).lastSlip ∧ (t.gauge g).slipCount = (u.gauge g).slipCount ∧
          (t.gauge g).lostMark = false) ∧
        (∀ r, u.mgmt.sleep = some r →
          t.answered r { status := .refused, table := r.table, index := r.index, data := [] }))

/-- RELEASE outside HELD is answered REFUSED and behind a COMMIT BUSY, with outputs, mode and the rest left alone. Else
the tables come from a VALID store, or are the defaults, with the working node number taken out of them; the window is
0, 0, the inputs are cleared with their freshness as it stands, and the mode is STANDING with the ignition OFF, else
RUNNING; DONE. From the empty budget HOLD leaves, the limit is that of its row; every lamp channel takes its result
afresh, OFF, UNREACHABLE, ON or WAITING, with no fault, no retry and nothing measured; the fan is STOPPED; every gauge is
PARKED at its rest drive with no slips, or starts where its conditions hold; the lamp-node records are those of the
channels, with last status and supply kept; LAMP_COMMANDs that waited are gone, the other entries stay, and one with its
masks waits for each lamp node. The model's: the loaded figures of a gauge are in use at once (entry 22), the output of
one driven again is 0.0 % until its next tick (entry 32), and a WAITING or UNREACHABLE channel of a lamp node starts its
refresh timer (entry 51). -/
def Obligations.ReleaseRestartsTheBlocks : Prop :=
  ∀ (s : State) (e : RxEntry), s.part.serves .release e →
    let u := s.part
    let v := takeEntry u
    let q := e.request
    let plain := fun st : Status => ({ status := st, table := q.table, index := q.index, data := [] } : Answer)
    let stored := if u.mgmt.store.state = .valid then u.mgmt.store.tables else defaultTables u.cutStrap
    ∃ t : Part, exec .release s = .next { s with part := t } ∧
      (u.mode ≠ .held → t.answered q (plain .refused) ∧ Undisturbed v t ∧
        (u.power.deferral = false → SameOutputs u t ∧ t.mode = u.mode)) ∧
      (u.mode = .held → u.mgmt.commit ≠ none → t.answered q (plain .busy) ∧ Undisturbed v t ∧ SameOutputs u t ∧
        t.mode = u.mode) ∧
      (u.mode = .held → u.mgmt.commit = none → u.power.deferral = false → t.answered q (plain .done) ∧
        t.mode = (if u.ignition = .off then .standing else .running) ∧
        t.mgmt.windowTable = 0 ∧ t.mgmt.windowIndex = 0 ∧ t.mgmt.node = u.mgmt.node ∧ t.mgmt.store = u.mgmt.store ∧
        t.tables = { stored with
          link := { stored.link with
            service := if stored.link.service = u.mgmt.node then 0 else stored.link.service }
          adopt := t.tables.adopt, channels := t.tables.channels } ∧
        (∀ i, t.tables.adopt.get i = if stored.adopt.get i = u.mgmt.node then 0 else stored.adopt.get i) ∧
        (∀ ch : Fin 25, t.tables.channels.get ch =
          if 17 ≤ ch.val ∧ (stored.channels.get ch).node = u.mgmt.node
          then { stored.channels.get ch with nominal := 0 } else stored.channels.get ch) ∧
        (∀ i, t.input i = { Input.cleared with fresh := (t.input i).fresh } ∧
          ((t.input i).fresh = true ↔ ∃ m, t.mapEntry i = some m ∧ t.heard m.source = true)) ∧
        (u.arbiter = Arbiter.empty → t.limitOk ∧ t.fan = Fan.stopped ∧
          (∀ ch, lampType ch = true →
            let d := (t.lamps.results.get ch).demand
            let st := (t.chan ch).state
            let away := 17 ≤ ch.val ∧ ¬ ∃ r, t.lampNode (t.chanCfg ch).node = some r ∧ r.reachable = true
            t.chan ch = { Chan.off with demand := d, state := st } ∧
            (st = .off ↔ d = .none ∨ t.nominal ch = 0) ∧ (st ≠ .off → (st = .unreachable ↔ away)) ∧
            (st = .off ∨ st = .unreachable → t.grant ch = 0 ∧ t.claimOf ch = none) ∧
            (st ≠ .off → st ≠ .unreachable →
              st = .on ∧ t.grant ch = t.nominal ch ∧ t.claimOf ch = none ∨
              st = .waiting ∧ t.grant ch = 0 ∧
                t.claimOf ch = some { chan := ch, amount := t.nominal ch, cls := t.classOf ch, shed := false })) ∧
          (∀ ch, lampType ch = false → t.chan ch = Chan.off) ∧
          (∀ g,
            let c := t.gaugeCfg g
            let st := (t.gauge g).state
            let starts := t.mode = .running ∧ 0 < c.nominal ∧
              (c.source = .supply ∨ ∃ x, t.node c.node = some x ∧ x.age < 300)
            t.gauge g = { Gauge.parkedAt c with state := st } ∧
            (st = .parked ↔ ¬ starts) ∧ (st = .parked → t.grant (gaugeChan g) = 0 ∧ t.claimOf (gaugeChan g) = none) ∧
            (st ≠ .parked → st = .settling ∨ st = match c.source with | .sender => .repeating | .supply => .tracking)) ∧
          (t.channels.lampNodes.map (·.node)).Nodup ∧
          (∀ n, (∃ r ∈ t.channels.lampNodes, r.node = n) ↔
            ∃ ch : Fin 25, 17 ≤ ch.val ∧ 0 < (t.chanCfg ch).nominal ∧ (t.chanCfg ch).node = n) ∧
          (∀ r ∈ t.channels.lampNodes,
            let used := ∃ ch : Fin 25, 17 ≤ ch.val ∧ 0 < (t.chanCfg ch).nominal ∧ (t.chanCfg ch).node = r.node ∧
              (t.chan ch).state ≠ .off
            (r.reachable = true ↔ t.heard r.node = true) ∧ (used → r.refresh = some 200) ∧
            (¬ used → r.refresh = none) ∧ (u.lampNode r.node = none → r.status = none ∧ r.supply = 0) ∧
            (∀ x, u.lampNode r.node = some x → r.status = x.status ∧ r.supply = x.supply)) ∧
          (∀ p,
            (∀ x ∈ u.ownQ p, x.isLampCommand = false → x ∈ t.ownQ p) ∧
            (∀ x ∈ t.ownQ p, x.isLampCommand = true → ∃ r ∈ t.channels.lampNodes, r.node = x.dest) ∧
            (((u.ownQ p).filter fun x => !x.isLampCommand).length ≤ 2 → t.channels.lampNodes.length ≤ 2 →
              ∀ r ∈ t.channels.lampNodes,
                let known := fun k : Port => ∃ x, t.node r.node = some x ∧ x.port = some k ∧ x.duplicate = false
                let reached := (t.port p).state ≠ .down ∧ (known p ∨ ∀ k, ¬ known k)
                let commands := (t.ownQ p).filter fun x => x.isLampCommand && x.dest == r.node
                (reached → commands =
                  [{ dest := r.node, source := u.mgmt.node, body := .lampCommand r.lit r.dim r.duty }]) ∧
                (¬ reached → commands = [])))))

/-- COMMIT behind another COMMIT or a SLEEP is answered BUSY with nothing done; else it copies the tables and the node
number into the store, which is WRITING until COMMIT_COMPLETE, with no reply queued or held, and is answered only then:
DONE with a VALID store and NV_FAULT clear, or FAILED with an INVALID one and NV_FAULT active. A HOLD in the slot is then
taken. That the copy is made as COMMIT is taken, and the read-back's result an operand, is the model's choice (entry
26). -/
def Obligations.CommitSavesTheTables : Prop :=
  (∀ (s : State) (e : RxEntry), s.part.serves .commit e →
    let u := s.part
    let v := takeEntry u
    let q := e.request
    ∃ t : Part, exec .commit s = .next { s with part := t } ∧
      (u.mgmt.commit ≠ none ∨ u.mgmt.sleep ≠ none → Undisturbed v t ∧
        t.answered q { status := .busy, table := q.table, index := q.index, data := [] }) ∧
      (u.mgmt.commit = none → u.mgmt.sleep = none → t.replyQueued = false ∧ t.mgmt.hold = [] ∧
        Undisturbed { v with mgmt := { v.mgmt with
          commit := some q, store := { state := .writing, tables := u.tables, node := u.mgmt.node } } } t)) ∧
  (∀ (s : State) (q : Request) (equal : Bool), s.part.on = true → s.part.mgmt.commit = some q →
    let u := s.part
    ∃ t : Part, exec (.commitComplete equal) s = .next { s with part := t } ∧
      t.mgmt.commit = none ∧ t.mgmt.slot = none ∧ t.active .nvFault = !equal ∧
      t.mgmt.store = { u.mgmt.store with state := if equal then .valid else .invalid } ∧
      t.answered q { status := if equal then .done else .failed, table := q.table, index := q.index, data := [] } ∧
      (∀ h, u.mgmt.slot = some h →
        t.answered h { status := .done, table := h.table, index := h.index, data := [] } ∧
        t.mode = .held ∧ (u.mode ≠ .held → t.arbiter = Arbiter.empty)) ∧
      t.tables = u.tables ∧ t.mgmt.node = u.mgmt.node)

/-- SLEEP outside STANDING, or with a lamp demand, is answered REFUSED; behind a COMMIT or another SLEEP BUSY; else
deferral begins, or goes on where it already runs after the idle interval, and SLEEP waits in its record until DORMANT
is entered, at once where nothing holds the entry up, with the answer DONE. -/
def Obligations.SleepAsksForDormant : Prop :=
  ∀ (s : State) (e : RxEntry), s.part.serves .sleep e →
    let u := s.part
    let v := takeEntry u
    let q := e.request
    let plain := fun st : Status => ({ status := st, table := q.table, index := q.index, data := [] } : Answer)
    ∃ t : Part, exec .sleep s = .next { s with part := t } ∧ Undisturbed v t ∧
      (u.mode ≠ .standing ∨ u.lamps.demandFlag = true → t.answered q (plain .refused)) ∧
      (u.mode = .standing → u.lamps.demandFlag = false → u.mgmt.commit ≠ none ∨ u.mgmt.sleep ≠ none →
        t.answered q (plain .busy)) ∧
      (u.mode = .standing → u.lamps.demandFlag = false → u.mgmt.commit = none → u.mgmt.sleep = none →
        (∀ x ∈ levelCauses u, u.active x.1 = x.2) →
        (v.mayEnterDormant = false → t.mgmt.sleep = some q ∧ t.power.deferral = true ∧ t.mode = .standing ∧
          SameOutputs u t) ∧
        (v.mayEnterDormant = true → t.answered q (plain .done) ∧ t.mgmt.sleep = none ∧ t.power.deferral = false ∧
          t.mode = .dormant ∧ t.power.settled = false ∧ t.power.reference = false))

/-- ASSIGN, which comes by a positional frame: BUSY behind a COMMIT; the present number is answered DONE with nothing
done; 0, a number above 62, of a PRESENT node, adopted, of the service node or of a lamp node in use is REFUSED; any
other becomes the working node number, which the answer already carries, leaves the node table and stops the own-number
timer. -/
def Obligations.AssignChangesTheNumber : Prop :=
  ∀ (s : State) (e : RxEntry), s.part.serves .assign e →
    let u := s.part
    let v := takeEntry u
    let q := e.request
    let n := (e.payload.getD 3 0).toNat
    let plain := fun st : Status => ({ status := st, table := q.table, index := q.index, data := [] } : Answer)
    let barred := n = 0 ∨ 62 < n ∨ (∃ x, u.node n = some x ∧ x.age < 30) ∨ n ∈ u.tables.adopt.toList
      ∨ n = u.tables.link.service
      ∨ ∃ ch : Fin 25, 17 ≤ ch.val ∧ 0 < (u.chanCfg ch).nominal ∧ (u.chanCfg ch).node = n
    ∃ t : Part, exec .assign s = .next { s with part := t } ∧
      (u.mgmt.commit ≠ none → t.answered q (plain .busy) ∧ Undisturbed v t) ∧
      (u.mgmt.commit = none → n = u.mgmt.node → t.answered q (plain .done) ∧ Undisturbed v t) ∧
      (u.mgmt.commit = none → n ≠ u.mgmt.node → barred → t.answered q (plain .refused) ∧ Undisturbed v t) ∧
      (u.mgmt.commit = none → n ≠ u.mgmt.node → ¬ barred → t.answered q (plain .done) ∧
        t.mgmt.node = n ∧ t.node n = none ∧ t.relay.ownTimer = none ∧
        ((∀ i, (u.tables.pins.get i).node ≠ u.mgmt.node) →
          t.relay.nodes = u.relay.nodes.filter fun x => x.node != n) ∧
        t.tables = u.tables ∧ t.mgmt.store = u.mgmt.store)

/-- REFRAME of a port is answered DONE and acts between frames at once, else at the end of the frame: an UP port goes to
SEEKING, any other stays, the three counts are 0, a held lock takes effect and the check mode is set by the lock. A
port number above 1 is REFUSED. -/
def Obligations.ReframeSeeksAgain : Prop :=
  ∀ (s : State) (e : RxEntry), s.part.serves .reframe e →
    let u := s.part
    let q := e.request
    let plain := fun st : Status => ({ status := st, table := q.table, index := q.index, data := [] } : Answer)
    ∃ t : Part, exec .reframe s = .next { s with part := t } ∧
      (1 < (e.payload.getD 3 0).toNat → t.answered q (plain .refused) ∧ Undisturbed (takeEntry u) t) ∧
      (∀ p, (e.payload.getD 3 0).toNat = (match p with | .front => 0 | .rear => 1) →
        let r := u.port p
        let lock := r.heldLock.getD r.lock
        t.answered q (plain .done) ∧
        (r.rx.phase = .idle ∨ r.rx.phase = .discard →
          (t.port p).state = (if r.state = .up then .seeking else r.state) ∧ (t.port p).reframe = false ∧
          (t.port p).good = 0 ∧ (t.port p).bad = 0 ∧ (t.port p).alt = 0 ∧ (t.port p).lock = lock ∧
          (t.port p).heldLock = none ∧ (t.port p).mode = if lock = .fixed8 then .sum8 else .check16) ∧
        (r.rx.phase = .header ∨ r.rx.phase = .body → (t.port p).reframe = true ∧ (t.port p).state = r.state ∧
          (t.port p).mode = r.mode ∧ (t.port p).good = r.good ∧ (t.port p).bad = r.bad ∧ (t.port p).alt = r.alt) ∧
        (t.port p.other).state = (u.port p.other).state ∧ (t.port p.other).mode = (u.port p.other).mode)

/-- CLEAR makes the event conditions GAUGE_SLIP and QUEUE_LOSS of its mask inactive and clears the changed flags of its
mask; CLEAR_COUNTERS sets the six counters of both ports and the requests dropped counter to 0. Both are answered
DONE. -/
def Obligations.ClearOpsClear : Prop :=
  ∀ (s : State) (e : RxEntry),
    let u := s.part
    let v := takeEntry u
    let q := e.request
    let done := ({ status := .done, table := q.table, index := q.index, data := [] } : Answer)
    (u.serves .clear e → u.calm →
      let mask := e.payload.getD 3 0 ++ e.payload.getD 4 0
      ∃ t : Part, exec .clear s = .next { s with part := t } ∧ t.answered q done ∧
        t.mgmt.active = v.mgmt.active &&& ~~~(mask &&& 0x0810#16) ∧
        t.mgmt.changed = v.mgmt.changed &&& ~~~mask ∧ SameOutputs u t ∧
        Undisturbed { v with mgmt := { v.mgmt with active := t.mgmt.active } } t) ∧
    (u.serves .clearCounters e →
      ∃ t : Part, exec .clearCounters s = .next { s with part := t } ∧ t.answered q done ∧
        t.mgmt.dropped = 0 ∧ (∀ p, (t.port p).counters = Counters.zero) ∧
        (∀ p, (t.port p).state = (u.port p).state ∧ (t.port p).rx = (u.port p).rx) ∧
        t.relay.nodes = u.relay.nodes ∧ t.tables = u.tables)

/-! ### Lamps and the flasher -/

/-- SAMPLE_CLOCK in RUNNING and STANDING (entry 25) measures every lit local lamp whose demand does not flash, and the
fan, where a RUNNING fan counts low samples in a row;
FLASH_SAMPLE measures the lit lamps whose demand flashes. A measured lamp has bulb_out set exactly below half its
nominal current, and a FLASH lamp found out is remembered for the flasher's rate; a lamp not measured stays. -/
def Obligations.SamplesJudgeBulbs : Prop :=
  ∀ (s : State) (c : Instr) (lamps : Vector Nat 12) (sort : Demand → Prop), s.part.on = true →
    s.part.power.deferral = false →
    (∃ fan, c = .sampleClock lamps fan ∧ s.part.stalls fan = false ∧
      (s.part.mode = .running ∨ s.part.mode = .standing) ∧ sort = fun d => d ≠ .flash ∧ d ≠ .telltale) ∨
    (c = .flashSample lamps ∧ s.part.channels.flashSample ≠ none ∧ sort = fun d => d = .flash ∨ d = .telltale) →
    let u := s.part
    ∃ t : Part, exec c s = .next { s with part := t } ∧
      (∀ l, u.lit (lampChan l) = true → sort (u.chan (lampChan l)).demand → t.chan (lampChan l) =
        { u.chan (lampChan l) with
          measured := lamps.get l, bulbOut := decide (2 * lamps.get l < u.nominal (lampChan l)) }) ∧
      (∀ l, ¬ (u.lit (lampChan l) = true ∧ sort (u.chan (lampChan l)).demand) →
        t.chan (lampChan l) = u.chan (lampChan l)) ∧
      (∀ l, u.lit (lampChan l) = true → sort (u.chan (lampChan l)).demand → (u.chan (lampChan l)).demand = .flash →
        (u.chan (lampChan l)).bulbOut = false → 2 * lamps.get l < u.nominal (lampChan l) →
        t.lamps.flasher.faultSeen = true) ∧
      (c = .flashSample lamps → t.channels.flashSample = none ∧ t.fan = u.fan) ∧
      (∀ fan, c = .sampleClock lamps fan → (t.chan fanChan).measured = fan ∧
        t.fan = { u.fan with stallCount := if u.fan.state ≠ .running then u.fan.stallCount
          else if fan < u.tables.fan.stallThreshold then u.fan.stallCount + 1 else 0 }) ∧
      t.arbiter = u.arbiter ∧ t.gauges = u.gauges ∧ t.channels.lampNodes = u.channels.lampNodes

/-- The overload timer of a lit lamp starts at 50 ms when its current, in mA (entry 8), is above 150 % of its nominal
current, runs on where it runs already, and is reset at a current at that level or below. An overload takes the lamp
to FAULT for 1 s, or latched at the fourth since it was last OFF; a short latches at once. Either puts the output off
and gives the grant back. -/
def Obligations.OverloadsAndShortsFault : Prop :=
  ∀ (s : State) (l : Fin 12), s.part.on = true → s.part.lit (lampChan l) = true →
    let u := s.part
    let ch := lampChan l
    let c := u.chan ch
    (∀ mA, ∃ t : Part, exec (.overloadLevelCrossing l mA) s = .next { s with part := t } ∧
      t.chan ch = { c with overload := if 3 * (100 * u.nominal ch) < 2 * mA then some (c.overload.getD 50) else none } ∧
      SameOutputs (u.setChan ch (t.chan ch)) t) ∧
    (c.overload ≠ none → ∃ t : Part, exec (.overload l) s = .next { s with part := t } ∧
      t.chan ch = { c with state := .fault, fault := .overload, latched := decide (3 ≤ c.retry), bulbOut := false
                           retryTimer := if c.retry < 3 then some 1000 else none, measured := 0, overload := none } ∧
      t.lit ch = false ∧ t.grant ch = 0 ∧ t.claimOf ch = none) ∧
    (∃ t : Part, exec (.shortTrip l) s = .next { s with part := t } ∧
      t.chan ch = { c with state := .fault, fault := .short, latched := true, bulbOut := false, retryTimer := none
                           measured := 0, overload := none } ∧
      t.lit ch = false ∧ t.grant ch = 0 ∧ t.claimOf ch = none)

/-- The retry timer of a FAULT channel ends: the retry count goes up by 1 and the channel claims its whole nominal
current again, or is UNREACHABLE where its lamp node is. With no claim waiting it is ON at once where the claim fits
under the limit, else WAITING with its claim. Its lamp node is refreshed meanwhile (the start of the refresh timer is the
model's reading of R76, entry 51). -/
def Obligations.RetryClaimsAgain : Prop :=
  ∀ (s : State) (ch : Fin 25), s.part.on = true → lampType ch = true → (s.part.chan ch).state = .fault →
    (s.part.chan ch).retryTimer ≠ none → s.part.grant ch = 0 → s.part.claimOf ch = none →
    let u := s.part
    let away := 17 ≤ ch.val ∧ ¬ ∃ r, u.lampNode (u.chanCfg ch).node = some r ∧ r.reachable = true
    ∃ t : Part, exec (.retryTimerExpiry ch) s = .next { s with part := t } ∧
      (t.chan ch).retry = (u.chan ch).retry + 1 ∧ (t.chan ch).demand = (u.chan ch).demand ∧
      (t.chan ch).retryTimer = none ∧
      (away → (t.chan ch).state = .unreachable ∧ t.grant ch = 0 ∧ t.claimOf ch = none) ∧
      (¬ away → (t.chan ch).state = .on ∧ t.grant ch = u.nominal ch ∧ t.claimOf ch = none ∨
        (t.chan ch).state = .waiting ∧ t.grant ch = 0 ∧
        t.claimOf ch = some { chan := ch, amount := u.nominal ch, cls := u.classOf ch, shed := false }) ∧
      (¬ away → u.arbiter.claims = [] →
        ((t.chan ch).state = .on ↔ u.committed + u.nominal ch ≤ u.arbiter.limit)) ∧
      (17 ≤ ch.val → 0 < u.nominal ch → ∀ r, t.lampNode (u.chanCfg ch).node = some r → r.refresh ≠ none)

/-- The refresh timer of a lamp-node record ends: a LAMP_COMMAND with the record's masks joins the own transmit queue of
the node's port, or of both, where the port is not DOWN and a place is free or a LAMP_COMMAND of the node waits, and the
timer restarts at 200 ms; with every channel of the node OFF it stops. -/
def Obligations.RefreshCommandsTheNode : Prop :=
  ∀ (s : State) (k : Fin 2) (r : LampNode), s.part.on = true → s.part.mode ≠ .held →
    s.part.channels.lampNodes[k.val]? = some r → s.part.lampNode r.node = some r → r.refresh ≠ none →
    let u := s.part
    let used := ∃ ch : Fin 25, 17 ≤ ch.val ∧ 0 < (u.chanCfg ch).nominal ∧ (u.chanCfg ch).node = r.node ∧
      (u.chan ch).state ≠ .off
    let known := fun p : Port => ∃ e, u.node r.node = some e ∧ e.port = some p ∧ e.duplicate = false
    ∃ t : Part, exec (.refreshTimerExpiry k) s = .next { s with part := t } ∧
      (used → (∃ r', t.lampNode r.node = some r' ∧ r'.refresh = some 200 ∧ r'.lit = r.lit ∧ r'.dim = r.dim) ∧
        ∀ p, (known p ∨ ∀ q, ¬ known q) → (u.port p).state ≠ .down →
          (u.ownQ p).length < 8 ∨ (∃ x ∈ u.ownQ p, x.isLampCommand = true ∧ x.dest = r.node) →
          { dest := r.node, source := u.mgmt.node, body := .lampCommand r.lit r.dim r.duty } ∈ t.ownQ p) ∧
      (¬ used → u.power.deferral = false → ∃ r', t.lampNode r.node = some r' ∧ r'.refresh = none) ∧
      (u.power.deferral = false ∨ used → t.channels.chans = u.channels.chans ∧ t.arbiter = u.arbiter ∧
        t.lamps = u.lamps ∧ t.fan = u.fan ∧ t.gauges = u.gauges)

/-- The edges of the flasher: at the end of an OFF phase ON_PHASE begins, FAST where a fault was seen, else NORMAL, its
timer at 190 or 375 ms, the fault-seen flag seeded from the FLASH channels, a sample due 100 ms later; at the end of an
ON phase OFF_PHASE begins at the same rate, with the overload timers of the local flash channels reset and those of
the other lit lamps left. The lit fields and the masks of the lamp nodes follow. -/
def Obligations.FlasherEdges : Prop :=
  ∀ (s : State), s.part.on = true → s.part.lamps.flasher.timer ≠ none →
    let u := s.part
    let f := u.lamps.flasher
    let phase := fun r : FlashRate => if r = .fast then 190 else 375
    let mask := fun (v : Part) (n : Nat) (test : Fin 25 → Prop) (b : Byte) => ∀ k : Fin 8, b.getLsbD k.val = true ↔
      ∃ ch : Fin 25, 17 ≤ ch.val ∧ 0 < (v.chanCfg ch).nominal ∧ (v.chanCfg ch).node = n ∧
        (v.chanCfg ch).output = k.val ∧ test ch
    let follow := fun (t : Part) (on : Bool) =>
      (∀ ch, lampType ch = true → (u.chan ch).state = .on →
        (u.chan ch).demand = .flash ∨ (u.chan ch).demand = .telltale → t.lit ch = on) ∧
      (∀ r ∈ t.channels.lampNodes, mask t r.node (fun ch => t.lit ch = true) r.lit ∧
        mask t r.node (fun ch => t.lit ch = true ∧ ∃ d, (t.chan ch).demand = .dim d) r.dim) ∧
      t.arbiter = u.arbiter ∧ t.fan = u.fan ∧ t.gauges = u.gauges ∧
      ∀ ch, (t.chan ch).state = (u.chan ch).state ∧ (t.chan ch).demand = (u.chan ch).demand
    (f.state = .offPhase → ∃ t : Part, exec .onPhaseEdge s = .next { s with part := t } ∧
      let rate := if f.faultSeen then FlashRate.fast else .normal
      t.lamps.flasher.state = .onPhase ∧ t.lamps.flasher.rate = rate ∧
      t.lamps.flasher.timer = some (phase rate) ∧ t.channels.flashSample = some 100 ∧
      (t.lamps.flasher.faultSeen = true ↔ ∃ ch, lampType ch = true ∧ (u.chan ch).demand = .flash ∧
        ((u.chan ch).bulbOut = true ∨ (u.chan ch).state = .unreachable)) ∧
      follow t true) ∧
    (f.state = .onPhase → ∃ t : Part, exec .offPhaseEdge s = .next { s with part := t } ∧
      t.lamps.flasher = { f with state := .offPhase, timer := some (phase f.rate) } ∧ follow t false ∧
      ∀ l : Fin 12,
        let c := u.chan (lampChan l)
        (c.demand = .flash ∨ c.demand = .telltale → (t.chan (lampChan l)).overload = none) ∧
        (c.demand ≠ .flash → c.demand ≠ .telltale → u.lit (lampChan l) = true →
          (t.chan (lampChan l)).overload = c.overload))

/-- At a change of the ignition state in RUNNING the lamp channels take the results of the rules: that of the satisfied
rule of the highest priority, of the lowest index among equals, or NONE. A rule is satisfied when it is enabled, its
mask has the ignition state, and its terms are true, a STALE input acting as the rule's stale behaviour says. -/
def Obligations.DemandsFollowTheRules : Prop :=
  ∀ (s : State) (l : IgnLine), s.part.on = true → s.part.mode = .running → (s.part.power.line l).timer ≠ none →
    let u := s.part
    let line := u.power.line l
    let p := u.power.setLine l { line with level := line.raw, timer := none }
    let ign := if p.start.level then Ignition.crank else if p.run.level then .run else if p.acc.level then .acc else .off
    let bit := match ign with | .off => 0 | .acc => 1 | .run => 2 | .crank => 3
    let holds := fun (stale : RuleStale) (i : Fin 32) (test : Nat → Prop) =>
      if (u.input i).fresh = true ∨ stale = .hold then test (u.input i).value else stale = .forceOn
    let satisfied := fun r : RuleCfg => r.enabled = true ∧ r.mask.getLsbD bit = true ∧
      holds r.stale r.inputA (fun v => match r.compare with | .eq => v = r.valueA | .ne => v ≠ r.valueA | .ge => r.valueA ≤ v) ∧
      ∀ b, r.inputB = some b → holds r.stale b (· = r.valueB)
    let rule := fun i => u.tables.rules.get i
    let duty := match u.tables.dimmer with | none => 100 | some i => 25 * ((u.input i).value + 1)
    ign ≠ u.ignition → ign ≠ .off → ∃ t : Part, exec (.ignitionDebounceExpiry l) s = .next { s with part := t } ∧
      (∀ ch, lampType ch = true → (¬ ∃ i, (rule i).target = ch ∧ satisfied (rule i)) → (t.chan ch).demand = .none) ∧
      (∀ ch i, lampType ch = true → (rule i).target = ch → satisfied (rule i) →
        (∀ j, (rule j).target = ch → satisfied (rule j) → j ≠ i →
          (rule j).priority < (rule i).priority ∨ (rule j).priority = (rule i).priority ∧ i < j) →
        (t.chan ch).demand =
          match (rule i).action with | .steady => .steady | .flash => .flash | .telltale => .telltale | .dim => .dim duty)

/-! ### The load budget -/

/-- Every step keeps the limit in force at the figure of the row of mode, ignition and charging state. -/
def Obligations.StepKeepsLimitRow : Prop :=
  ∀ s t : State, s.part.limitOk → step s = .next t → t.part.limitOk

/-- A fall of the limit sheds: the committed total comes to at most the new limit; a channel keeps its whole grant or
loses all of it; a GAUGE channel loses its grant only when no COMFORT channel keeps one, a SAFETY channel only when
neither class does; within a class the latest grant goes first. Each victim but a LOST or PARKING gauge waits with a
claim of shed standing for its nominal current, the fan for its first claim, behind the claims that stand no later by
class and standing and behind those of the victims of its class shed before it; the other claims keep their order. A
claim is granted at once where none waits and it fits; else it joins last of its class and standing, and none is granted
past a head that does not fit. A rise of the limit grants claims from the head on until one does not fit. -/
def Obligations.ShedsComfortThenGaugeThenSafety : Prop :=
  (∀ (s : Part) (new : Nat), new < s.arbiter.limit → s.budgetOk → s.arbiter.order.Nodup →
    let t := setLimit new s
    let lost := fun ch => 0 < s.grant ch ∧ t.grant ch = 0
    let before := fun a b : Claim => ∃ x y z, t.arbiter.claims = x ++ a :: y ++ b :: z
    let idle := fun ch => ∃ g, ch = gaugeChan g ∧ ((s.gauge g).state = .lost ∨ (s.gauge g).state = .parking)
    t.committed ≤ new ∧ (∀ ch, t.grant ch = s.grant ch ∨ t.grant ch = 0) ∧
    (∀ ch k, lost ch → s.classOf ch = .gauge → s.classOf k = .comfort → t.grant k = 0) ∧
    (∀ ch k, lost ch → s.classOf ch = .safety → s.classOf k ≠ .safety → t.grant k = 0) ∧
    (∀ pre mid post ch k, s.arbiter.order = pre ++ ch :: mid ++ k :: post → lost ch → s.classOf k = s.classOf ch →
      t.grant k = 0) ∧
    (s.claimsOk → (∀ ch ∈ s.arbiter.order, 0 < s.grant ch) →
      (∀ ch, lost ch → ¬ idle ch → t.claimOf ch = some
        { chan := ch, amount := if ch = fanChan then t.firstClaim s.fan.target else s.nominal ch, cls := s.classOf ch
          shed := true }) ∧
      (∀ ch, lost ch → idle ch → t.claimOf ch = none) ∧
      (s.arbiter.claims.filter fun c => t.grant c.chan == s.grant c.chan).Sublist t.arbiter.claims ∧
      (∀ ch b, lost ch → t.claimOf ch = some b → ∀ a ∈ s.arbiter.claims, t.grant a.chan = s.grant a.chan →
        a.key ≤ b.key → before a b) ∧
      (∀ pre mid post ch k a b, s.arbiter.order = pre ++ ch :: mid ++ k :: post → lost ch → lost k →
        s.classOf k = s.classOf ch → t.claimOf k = some a → t.claimOf ch = some b → before a b))) ∧
  (∀ (s : Part) (ch : Fin 25) (amount : Nat), s.claimOf ch = none →
    let t := makeClaim ch amount s
    let c : Claim := { chan := ch, amount := amount, cls := s.classOf ch, shed := false }
    (s.arbiter.claims = [] → s.committed + amount ≤ s.arbiter.limit →
      t.grant ch = s.grant ch + amount ∧ t.arbiter.claims = []) ∧
    (∀ pre post, s.arbiter.claims = pre ++ post → (∀ x ∈ pre, x.key ≤ c.key) → (∀ x ∈ post, c.key < x.key) →
      (∀ x xs, pre ++ c :: post = x :: xs → s.arbiter.limit < s.committed + x.amount) →
      t.arbiter.claims = pre ++ c :: post ∧ ∀ k, t.grant k = s.grant k)) ∧
  (∀ (s : Part) (new : Nat), s.arbiter.limit < new → s.budgetOk → s.claimsOk →
    let t := setLimit new s
    t.committed ≤ new ∧ ∃ k, t.arbiter.claims = s.arbiter.claims.drop k ∧
      (∀ c ∈ s.arbiter.claims.take k, t.grant c.chan = s.grant c.chan + c.amount) ∧
      (∀ ch, (∀ c ∈ s.arbiter.claims.take k, c.chan ≠ ch) → t.grant ch = s.grant ch) ∧
      (∀ c cs, t.arbiter.claims = c :: cs → new < t.committed + c.amount))

/-! ### The fan -/

/-- A ramp step of the fan toward its target: the next duty N is the ramp step above the duty, at most the target.
Where the grant pays for N it is taken; else the fan claims, in pieces of at most the grain while DECOMPOSED, for the
rest of its target while WHOLE. With no claim waiting, one that fits is granted at once and the fan takes the highest
duty up to N it pays for; one that does not waits and the duty stays. The target selected is the duty of the switch
position while the fan is permitted and used, else 0 %; an accepted FAN write selects it. A change of target acts by the
fan's state: 0 % stops it; STOPPED and RUNNING take a step toward a higher one; WAITING and RAMPING replace a waiting
claim in its place; one at or below the duty is taken at once with the grant above its need given back; STALL_WAIT and
LATCHED record it. Position 0 and the ignition OFF end LATCHED. Nothing is selected in HELD. That a claim a FAN write
replaces is sized with the ramp step as written is the model's choice (entry 49). -/
def Obligations.FanRampsByClaims : Prop :=
  let need := fun (v : Part) (d : Nat) => (d * v.tables.fan.nominal + 99) / 100
  let sized := fun (v : Part) (N T g : Nat) =>
    if v.arbiter.limit < v.tables.power.capacity ∧ v.tables.fan.grain < 255 then min (need v N - g) v.tables.fan.grain
    else need v T - g
  let moved := fun (T : Nat) (t : Part) (d : Nat) => t.fan.duty = d ∧ t.fan.target = T ∧ t.fan.stallCount = 0 ∧
    (d = T → t.fan.state = .running ∧ t.fan.ramp = none) ∧
    (d ≠ T → t.fan.state = .ramping ∧ t.fan.ramp = some 100)
  let stepped := fun (v : Part) (st : FanState) (T : Nat) (t : Part) =>
    let N := min (v.fan.duty + v.tables.fan.rampStep) T
    let g := v.grant fanChan
    let amount := sized v N T g
    (need v N ≤ g → moved T t N ∧ t.arbiter = v.arbiter) ∧
    (g < need v N → v.arbiter.claims = [] → v.committed + amount ≤ v.arbiter.limit →
      t.grant fanChan = g + amount ∧ t.claimOf fanChan = none ∧ t.fan.shedMark = false ∧
      ∃ d, d ≤ N ∧ need v d ≤ g + amount ∧ (d < N → g + amount < need v (d + 1)) ∧ moved T t d) ∧
    (g < need v N → v.arbiter.claims = [] → v.arbiter.limit < v.committed + amount →
      t.grant fanChan = g ∧ t.fan.duty = v.fan.duty ∧ t.fan.target = T ∧ t.fan.state = st ∧ t.fan.ramp = none ∧
      t.claimOf fanChan = some { chan := fanChan, amount := amount, cls := .comfort, shed := false })
  (∀ s : State, s.part.on = true → s.part.fan.state = .ramping → s.part.fan.ramp ≠ none →
    s.part.claimOf fanChan = none →
    ∃ t : Part, exec .rampStep s = .next { s with part := t } ∧ stepped s.part .ramping s.part.fan.target t) ∧
  (∀ (bs : List Byte) (u t : Part), writeEntry 7 0 bs u = .ok t →
    ∃ c, t = syncConds (selectFan (u.setTables { u.tables with fan := c }))) ∧
  ∀ u : Part,
    let t := selectFan u
    let f := u.fan
    let c := u.tables.fan
    let x := u.input c.input
    let position := if x.fresh = true ∨ c.stale = .hold then x.value else 0
    let permitted := u.mode = .running ∧ (c.permission = .run ∧ (u.ignition = .run ∨ u.ignition = .crank) ∨
      c.permission = .accRun ∧ u.ignition ≠ .off)
    let speed := if position = 1 then c.duty1 else if position = 2 then c.duty2 else if position = 3 then c.duty3 else 0
    let g := u.grant fanChan
    let first := fun T : Nat => sized u (min c.rampStep T) T 0
    let ended := t.fan = Fan.stopped ∧ t.grant fanChan = 0 ∧ t.claimOf fanChan = none
    let repriced := fun a : Nat => u.arbiter.claims.map fun y => if y.chan = fanChan then { y with amount := a } else y
    let blocked := fun q : List Claim => ∀ y ys, q = y :: ys → u.arbiter.limit < u.committed + y.amount
    (u.mode = .held → t = u) ∧
    (u.mode ≠ .held → f.state = .latched → position = 0 ∨ u.ignition = .off → t = u.setFan Fan.stopped) ∧
    ∀ T, (permitted ∧ 0 < c.nominal → T = speed) → (¬ (permitted ∧ 0 < c.nominal) → T = 0) →
      u.mode ≠ .held → ¬ (f.state = .latched ∧ (position = 0 ∨ u.ignition = .off)) →
      (T = f.target → t = u) ∧
      (T ≠ f.target →
        (f.state = .stopped → 0 < T → u.claimOf fanChan = none → stepped u .waiting T t) ∧
        (f.state = .waiting ∨ f.state = .ramping ∨ f.state = .running ∨ f.state = .stallWait → T = 0 → ended) ∧
        (f.state = .waiting → 0 < T → u.claimOf fanChan ≠ none → 0 < c.rampStep → blocked (repriced (first T)) →
          t.arbiter.claims = repriced (first T) ∧ t.fan = { f with target := T, nextDuty := t.fan.nextDuty }) ∧
        (f.state = .ramping ∨ f.state = .running → 0 < T → T ≤ f.duty →
          t.grant fanChan = min (need u T) g ∧ t.claimOf fanChan = none ∧
          (T < f.duty → t.fan = { f with target := T, duty := T, state := .running, ramp := none, stallCount := 0
                                         overload := none }) ∧
          (T = f.duty → t.fan = { f with target := T, state := .running, ramp := none })) ∧
        (f.state = .ramping → f.duty < T → u.claimOf fanChan = none →
          t.grant fanChan = min (need u T) g ∧ t.fan = { f with target := T }) ∧
        (f.state = .ramping → f.duty < T → u.claimOf fanChan ≠ none → g ≤ need u T →
          let N := min (f.duty + c.rampStep) T
          let a := sized u N T g
          g < need u N → blocked (repriced a) →
            t.arbiter.claims = repriced a ∧ t.fan = { f with target := T, nextDuty := t.fan.nextDuty }) ∧
        (f.state = .running → f.duty < T → u.claimOf fanChan = none → stepped u .ramping T t) ∧
        (f.state = .stallWait → 0 < T → t = u.setFan { f with target := T }) ∧
        (f.state = .latched → t = u.setFan { f with target := T }))

/-- The faults of the fan: the 21st low sample in a row of a RUNNING fan stops it for 5 s; three such waits end in a new
start, the fourth latches it; a current above the level for 50 ms latches it at once. A stall and an overload give the
grant back. The level is one and a half times the nominal current times the duty divided by 100; a current above it (in
mA, entry 8) starts the 50 ms timer, one at it or below resets it. -/
def Obligations.FanFaultsStopIt : Prop :=
  ∀ s : State, s.part.on = true →
    let u := s.part
    let f := u.fan
    let level := 3 * (100 * u.tables.fan.nominal)
    (∀ a, f.state = .running → 20 ≤ f.stallCount → a < u.tables.fan.stallThreshold → u.power.deferral = false →
      ∃ t : Part, exec (.stall a) s = .next { s with part := t } ∧
        t.fan = { f with state := .stallWait, duty := 0, ramp := none, overload := none, stallCount := 0
                         stallWait := some 5000 } ∧
        (t.chan fanChan).measured = a ∧ t.grant fanChan = 0 ∧ t.claimOf fanChan = none) ∧
    (f.state = .stallWait → f.stallWait ≠ none → ∃ t : Part, exec .stallWaitExpiry s = .next { s with part := t } ∧
      (3 ≤ f.retry →
        t.fan = { f with state := .latched, stallWait := none, latchCause := .stall } ∧ t.arbiter = u.arbiter) ∧
      (f.retry < 3 → u.power.deferral = false → t.fan.retry = f.retry + 1 ∧ t.fan.stallWait = none ∧
        t.fan.target = f.target ∧
        (t.fan.state = .waiting ∨ t.fan.state = .ramping ∨ t.fan.state = .running))) ∧
    (f.state = .ramping ∨ f.state = .running → 0 < f.duty →
      (∀ mA, ∃ t : Part, exec (.fanOverloadLevelCrossing mA) s = .next { s with part := t } ∧
        t.fan = { f with overload := if level * f.duty < 2 * 100 * mA then some (f.overload.getD 50) else none } ∧
        SameOutputs (u.setFan t.fan) t) ∧
      (f.overload ≠ none → ∃ t : Part, exec .fanOverload s = .next { s with part := t } ∧
        t.fan = { f with state := .latched, duty := 0, ramp := none, overload := none, stallCount := 0
                         latchCause := .overload } ∧
        t.grant fanChan = 0 ∧ t.claimOf fanChan = none))

/-! ### The gauges -/

/-- The curve drive of a reading on a curve of strictly rising readings: the drive of the first point at or below it, of
the last at or above it, and between two points the nearest whole figure on the straight line, a half rounded up. -/
def Obligations.CurveIsPiecewiseLinear : Prop :=
  ∀ ps : List CurvePoint, ps.Pairwise (fun a b => a.reading < b.reading) →
    (∀ p rest r, ps = p :: rest → r ≤ p.reading → curveDrive r ps = p.drive) ∧
    (∀ pre p r, ps = pre ++ [p] → p.reading ≤ r → curveDrive r ps = p.drive) ∧
    (∀ pre a b post (r : Nat), ps = pre ++ a :: b :: post → a.reading ≤ r → r ≤ b.reading →
      let line : Int := (a.drive : Int) * ((b.reading : Int) - r) + (b.drive : Int) * ((r : Int) - a.reading)
      let den : Int := (b.reading : Int) - a.reading
      2 * line - den < 2 * den * (curveDrive r ps : Int) ∧ 2 * den * (curveDrive r ps : Int) ≤ 2 * line + den)

/-- A gauge tick: a TRACKING SENDER gauge uses its oldest sample, or with none slips to REPEATING, keeping its last, and
GAUGE_SLIP is raised; a REPEATING one uses its oldest again from three samples on. A reading moves the drive toward its
curve drive by the damping figure at most, an open sender by PARK toward the rest drive; by HOLD, or with no sample yet, the drive stays.
A SUPPLY gauge takes the filtered supply in 0.02 V units. A park ramp goes a fifteenth on. A driven output is the drive
of a COIL gauge, and of a THERMAL gauge that drive over the supply to the nearest 0.1 %, at most 100 %. The park drive
and the lost behaviour as last written are in use from the tick on (entry 22). -/
def Obligations.GaugeTickMovesDrives : Prop :=
  ∀ (s : State) (g : Fin 4), s.part.on = true → s.part.power.deferral = false →
    let u := s.part
    let c := u.gaugeCfg g
    let r := u.gauge g
    let slipped := { r with state := .repeating, slip := !r.slip, lastSlip := .repeat_
                            slipCount := if r.slipCount < 255 then r.slipCount + 1 else r.slipCount }
    let sampled := match r.state, r.store with
      | .tracking, [] => slipped
      | .repeating, x :: y :: z :: more => { r with store := y :: z :: more, last := some x, state := .tracking }
      | .tracking, x :: more => { r with store := more, last := some x }
      | _, _ => r
    let toward := fun old goal new : Nat =>
      (old ≤ goal → new = min goal (old + c.damping)) ∧ (goal ≤ old → new = max goal (old - c.damping))
    let output := fun x : Gauge =>
      (c.type = .coil → x.output = x.drive) ∧
      (c.type = .thermal → 0 < u.supply → x.output ≤ 1000 ∧
        (2 * 1000 * x.drive ≤ u.supply * (2 * x.output + 1) ∨ x.output = 1000) ∧
        u.supply * (2 * x.output) ≤ 2 * 1000 * x.drive + u.supply)
    ∃ t : Part, exec .gaugeTick s = .next { s with part := t } ∧
      (r.state = .tracking ∨ r.state = .repeating → output (t.gauge g)) ∧
      (c.source = .sender → r.state = .tracking ∨ r.state = .repeating →
        t.gauge g = { sampled with
          drive := (t.gauge g).drive, curveDrive := (t.gauge g).curveDrive, output := (t.gauge g).output
          parkDrive := c.parkDrive, lost := c.lost } ∧
        (r.state = .tracking → r.store = [] → t.active .gaugeSlip = true ∧
          (u.active .gaugeSlip = false → t.changed .gaugeSlip = true)) ∧
        (∀ v, sampled.last = some (.reading v) →
          (t.gauge g).curveDrive = curveDrive v (u.curvePoints c.curve) ∧
          toward r.drive (curveDrive v (u.curvePoints c.curve)) (t.gauge g).drive) ∧
        (sampled.last = some .open_ → c.open_ = .park → toward r.drive (GaugeCfg.rest c) (t.gauge g).drive) ∧
        (sampled.last = none ∨ sampled.last = some .open_ ∧ c.open_ = .hold → (t.gauge g).drive = r.drive)) ∧
      (c.source = .supply → r.state = .tracking ∨ r.state = .repeating → ∃ v, v ≤ 1023 ∧
        (v = u.supply / 2 ∨ v = (u.supply + 1) / 2 ∨ v = 1023 ∧ 1023 ≤ (u.supply + 1) / 2) ∧
        (t.gauge g).state = r.state ∧ toward r.drive (curveDrive v (u.curvePoints c.curve)) (t.gauge g).drive) ∧
      (r.state = .parking → 2 ≤ r.rampLeft → r.rampLeft ≤ 15 →
        let k : Int := 15 - (r.rampLeft - 1)
        let path : Int := 15 * r.rampStart + ((c.parkDrive : Int) - r.rampStart) * k
        (t.gauge g).state = .parking ∧ (t.gauge g).rampLeft = r.rampLeft - 1 ∧ output (t.gauge g) ∧
        2 * path - 15 < 30 * ((t.gauge g).drive : Int) ∧ 30 * ((t.gauge g).drive : Int) < 2 * path + 15) ∧
      (r.state = .lost → (t.gauge g).drive = r.drive ∧ (t.gauge g).state = .lost ∧ output (t.gauge g)) ∧
      (r.state = .parked ∨ r.state = .settling → (∀ k, (u.gauge k).state ≠ .parking) →
        t.gauge g = { r with drive := GaugeCfg.rest c, parkDrive := c.parkDrive, lost := c.lost }) ∧
      (t.gauge g).parkDrive = c.parkDrive ∧ (t.gauge g).lost = c.lost ∧
      t.tables = u.tables ∧ t.inputs = u.inputs

/-- The last tick of a park ramp leaves the gauge PARKED at its rest drive with the output off, no samples and its grant
given back; in RUNNING with its sender at hand and a nominal current it starts again, SETTLING or already driven. The
model's: the last sample is none after a ramp begun by ignition OFF too (entry 61); the command is the tick of its one
gauge, which brings the entry's figures into use (entry 22); the output of a gauge that starts again and is driven stays
0.0 % until its next tick (entry 32). -/
def Obligations.ParkRampEndParks : Prop :=
  ∀ (s : State) (g : Fin 4), s.part.on = true → s.part.power.deferral = false →
    (s.part.gauge g).state = .parking → (s.part.gauge g).rampLeft = 1 →
    let u := s.part
    let c := u.gaugeCfg g
    let starts := u.mode = .running ∧ 0 < c.nominal ∧
      (c.source = .supply ∨ ∃ e, u.node c.node = some e ∧ e.age < 300)
    ∃ t : Part, exec (.parkRampEnd g) s = .next { s with part := t } ∧
      (t.gauge g).store = [] ∧ (t.gauge g).last = none ∧ (t.gauge g).rampLeft = 0 ∧
      (t.gauge g).output = 0 ∧ (t.gauge g).drive = GaugeCfg.rest c ∧ (t.gauge g).lostMark = (u.gauge g).lostMark ∧
      (¬ starts → (t.gauge g).state = .parked ∧ t.grant (gaugeChan g) = 0 ∧ t.claimOf (gaugeChan g) = none) ∧
      (starts → (t.gauge g).state ≠ .parked ∧ (t.gauge g).state ≠ .parking) ∧
      Undisturbed u t

/-! ### Ignition, supply and modes -/

/-- A change of the raw level of an ignition line restarts its 20 ms debounce timer, which a part held in reset does not
run; at its expiry the debounced level takes the raw level. A change of the ignition state from OFF takes STANDING,
DORMANT and QUIET to RUNNING, one to OFF takes RUNNING to STANDING; HELD stays. From DORMANT or QUIET the reference
comes on and a settling starts; a SLEEP that waits is answered REFUSED. -/
def Obligations.IgnitionMovesTheMode : Prop :=
  ∀ (s : State) (l : IgnLine),
    let u := s.part
    let line := u.power.line l
    let settled := u.power.setLine l { line with level := line.raw, timer := none }
    let ign := ignitionOf settled.acc.level settled.run.level settled.start.level
    let changed := fun high : Bool => u.power.setLine l
      { line with raw := high, timer := if u.power.stage = .held then none else some 20 }
    (∀ high, exec (.ignitionLineChange l high) s =
      .next { s with part := if line.raw = high then u else { u with power := changed high } }) ∧
    (line.timer ≠ none → ∃ t : Part, exec (.ignitionDebounceExpiry l) s = .next { s with part := t } ∧
      Undisturbed { u with power := settled } t ∧
      (u.on = true → ign ≠ u.ignition →
        (u.mode = .running → u.power.deferral = false → t.mode = if ign = .off then .standing else .running) ∧
        (u.mode = .standing → ign ≠ .off → t.mode = .running ∧ t.power.deferral = false ∧
          (∀ q, u.power.deferral = true → u.mgmt.sleep = some q → t.mgmt.sleep = none ∧
            t.answered q { status := .refused, table := q.table, index := q.index, data := [] })) ∧
        (u.mode = .dormant ∨ u.mode = .quiet → ign ≠ .off → t.mode = .running ∧ t.power.reference = true ∧
          t.power.quiet = none ∧ (∀ p, (t.port p).tx ≠ .dark) ∧
          t.power.interval = .settling (20 * 2 ^ u.tables.power.settling.val)) ∧
        (u.mode = .held → t.mode = .held ∧ t.arbiter = u.arbiter)))

/-- A supply sample takes the place of the oldest of four; the filtered supply is their mean, a half rounded up. A part
held in reset is released above 5.50 V; any other falls into reset below 5.00 V, keeping only the store, the samples and
the pins (the model's reading, entry 37); that the limit is then 0.0 A, lamp logic dark and the target of the fan 0 % is
the model's choice (entry 5). A running part follows LOW_SUPPLY, below 9.00 V to 9.30 V, and the charging state, from the threshold down to
0.30 V below it. -/
def Obligations.SupplySampleActs : Prop :=
  ∀ (s : State) (v : Nat),
    let u := s.part
    let p := u.power
    let mean := (p.samples.get 1 + p.samples.get 2 + p.samples.get 3 + v + 2) / 4
    let fresh := fun (t : Part) =>
      t.mgmt.store = u.mgmt.store ∧ t.nodeStraps = u.nodeStraps ∧ t.cutStrap = u.cutStrap ∧
      t.relay = Relay.powerOn ∧ (∀ i, t.input i = Input.cleared) ∧ (∀ ch, t.chan ch = Chan.off) ∧
      t.arbiter = Arbiter.empty ∧ t.lamps = Lamps.dark ∧ t.fan = Fan.stopped ∧ (∀ g, (t.gauge g).state = .parked) ∧
      t.mgmt.slot = none ∧ t.mgmt.hold = [] ∧ t.mgmt.commit = none ∧ t.mgmt.sleep = none ∧ t.mgmt.active = 0 ∧
      (∀ q, (t.port q).state = .down ∧ (t.port q).quiet = none ∧ (t.port q).counters = Counters.zero)
    ∃ t : Part, exec (.supplySample v) s = .next { s with part := t } ∧
      (∀ i : Fin 4, t.power.samples.get i = if h : i.val < 3 then p.samples.get ⟨i.val + 1, by omega⟩ else v) ∧
      t.supply = mean ∧
      (p.stage = .held → mean ≤ 550 → t = { u with power := { p with samples := t.power.samples } }) ∧
      (p.stage = .held → 550 < mean → t.power.stage = .released false ∧ fresh t ∧
        (∀ q, (t.port q).tx = .filling 0) ∧ ∀ l, (t.power.line l).timer = some 20) ∧
      (p.stage ≠ .held → mean < 500 → t.power.stage = .held ∧ fresh t ∧
        (∀ q, (t.port q).tx = .dark) ∧ ∀ l, (t.power.line l).timer = none) ∧
      (∀ b, p.stage = .released b → 500 ≤ mean → t = { u with power := { p with samples := t.power.samples } }) ∧
      (p.stage = .running → 500 ≤ mean →
        (mean < 900 → t.active .lowSupply = true) ∧ (930 ≤ mean → t.active .lowSupply = false) ∧
        (900 ≤ mean → mean < 930 → t.active .lowSupply = u.active .lowSupply) ∧
        t.power.charging = (if u.tables.power.threshold ≤ mean then .charging
          else if mean + 30 < u.tables.power.threshold then .discharging else p.charging) ∧
        Undisturbed { u with power := { p with samples := t.power.samples, charging := t.power.charging }
                             mgmt := { u.mgmt with active := t.mgmt.active } } t)

/-- The power-on sequence: the load stage takes tables and node number from a VALID store, else the defaults and the
straps, marks the store INVALID and raises NV_FAULT; it sets the check locks and parks the gauges. The start stage, when
no debounce timer runs, starts the part: RUNNING, or STANDING with the ignition OFF, the reference on, the settled flag
clear with its interval running, the charging state by the threshold, LOW_SUPPLY below 9.00 V, no changed flag. -/
def Obligations.PowerOnSequenceStarts : Prop :=
  ∀ s : State,
    let u := s.part
    (u.power.stage = .released false → ∃ t : Part, exec .nvLoad s = .next { s with part := t } ∧
      t.power = { u.power with stage := .released true } ∧
      (u.mgmt.store.state = .valid → t.tables = u.mgmt.store.tables ∧ t.mgmt.node = u.mgmt.store.node ∧
        t.mgmt.store = u.mgmt.store ∧ t.mgmt.active = u.mgmt.active) ∧
      (u.mgmt.store.state ≠ .valid → t.tables = defaultTables u.cutStrap ∧
        t.mgmt.node = 40 + u.nodeStraps.toNat ∧ t.mgmt.store = { u.mgmt.store with state := .invalid } ∧
        t.active .nvFault = true) ∧
      (t.port .front).lock = t.tables.link.lockFront ∧ (t.port .rear).lock = t.tables.link.lockRear ∧
      (∀ g, t.gauge g = Gauge.parkedAt (t.gaugeCfg g)) ∧
      t.inputs = u.inputs ∧ t.arbiter = u.arbiter ∧ t.fan = u.fan ∧ t.lamps = u.lamps) ∧
    (u.power.stage = .released true → (∀ l, (u.power.line l).timer = none) → u.power.deferral = false →
      ∃ t : Part, exec .powerOnStart s = .next { s with part := t } ∧
        t.power.stage = .running ∧ t.mode = (if u.ignition = .off then .standing else .running) ∧
        t.power.charging = (if u.tables.power.threshold ≤ u.supply then .charging else .discharging) ∧
        t.power.reference = true ∧ t.power.settled = false ∧
        t.power.interval = .settling (20 * 2 ^ u.tables.power.settling.val) ∧
        (t.active .lowSupply = true ↔ u.supply < 900) ∧ (∀ c, t.changed c = false) ∧ t.mgmt.owed = false ∧
        (∀ x ∈ levelCauses t, t.active x.1 = x.2) ∧
        t.tables = u.tables ∧ t.mgmt.node = u.mgmt.node ∧ t.inputs = u.inputs ∧ t.relay.nodes = u.relay.nodes)

/-- The timers of the power manager: the settling interval sets the settled flag and lets gauges with a grant leave
SETTLING; the idle interval begins deferral; deferral enters DORMANT when every condition of entry holds, with the
reference off, the settled flag clear, SLEEP answered DONE and the 60 s quiet timer started with both ports DOWN; that
timer takes DORMANT to QUIET, both ports DOWN and DARK, with the node table, the queues and the inputs kept. With no
claim and nothing committed, both entries leave every channel at its OFF values, masks clear and refresh stopped. -/
def Obligations.PowerTimersMoveTheMode : Prop :=
  ∀ s : State, s.part.on = true →
    let u := s.part
    let rests := fun t : Part => u.arbiter.claims = [] → u.committed = 0 → (∀ ch, t.chan ch = Chan.off) ∧
      ∀ r ∈ t.channels.lampNodes, r.lit = 0 ∧ r.dim = 0 ∧ r.duty = 100 ∧ r.refresh = none
    (∀ n, u.power.interval = .settling n → u.power.deferral = false →
      ∃ t : Part, exec .settlingExpiry s = .next { s with part := t } ∧
        t.power.settled = true ∧ t.mode = u.mode ∧ (∀ n, t.power.interval ≠ .settling n) ∧
        (∀ g, (u.gauge g).state = .settling → 0 < u.grant (gaugeChan g) → (t.gauge g).state =
          match (u.gaugeCfg g).source with | .sender => .repeating | .supply => .tracking) ∧
        (∀ g, ¬ ((u.gauge g).state = .settling ∧ 0 < u.grant (gaugeChan g)) → t.gauge g = u.gauge g)) ∧
    (∀ n, u.power.interval = .idle n → u.calm → ∃ t : Part, exec .idleExpiry s = .next { s with part := t } ∧
      (u.mode = .standing ∧ u.mayEnterDormant = true → t.mode = .dormant) ∧
      (¬ (u.mode = .standing ∧ u.mayEnterDormant = true) → t.mode = u.mode ∧ t.power.deferral = true ∧
        t.power.interval = .none ∧ SameOutputs u t)) ∧
    (u.power.deferral = true → u.mode = .standing → u.mayEnterDormant = true →
      ∃ t : Part, exec .dormantEntry s = .next { s with part := t } ∧
        t.mode = .dormant ∧ t.power.deferral = false ∧ t.power.settled = false ∧ t.power.reference = false ∧
        t.power.interval = .none ∧ t.mgmt.sleep = none ∧
        (∀ q, u.mgmt.sleep = some q →
          t.answered q { status := .done, table := q.table, index := q.index, data := [] }) ∧
        t.power.quiet = (if (u.port .front).state = .down ∧ (u.port .rear).state = .down
          then some (u.power.quiet.getD 60000) else none) ∧
        rests t ∧ Undisturbed u t) ∧
    (u.mode = .dormant → u.power.quiet ≠ none → ∃ t : Part, exec .quietEntry s = .next { s with part := t } ∧
      t.mode = .quiet ∧ t.power.quiet = none ∧ t.power.reference = u.power.reference ∧
      (∀ p, (t.port p).state = .down ∧ (t.port p).good = 0 ∧ (t.port p).bad = 0 ∧ (t.port p).alt = 0 ∧
        (t.port p).reframe = false ∧ (t.port p).rx = Rx.idle ∧ (t.port p).tx = .dark ∧ (t.port p).quiet = none ∧
        (t.port p).counters = (u.port p).counters ∧ (t.port p).lock = (u.port p).lock) ∧
      t.relay.nodes = u.relay.nodes ∧ (∀ p, t.rxQ p = u.rxQ p ∧ t.relayQ p = u.relayQ p) ∧ t.inputs = u.inputs ∧
      t.tables = u.tables ∧ rests t)

/-! ### What commands leave alone -/

/-- A command of an output, of its sensing, of the settling interval, the idle interval or DORMANT entry leaves the link
alone. The other timers of the power manager are no such commands: QUIET_ENTRY puts both ports DOWN, and an
IGNITION_DEBOUNCE_EXPIRY sets its line and may wake the ports. What stays: ports, node table, receive and relay queues,
input image, request slot, window, COMMIT record, dropped counter, node number, tables, store, ignition lines, supply
samples, charging state and pins. -/
def Obligations.OutputCommandsLeaveTheLink : Prop :=
  ∀ (c : Instr) (s : State) (t : Part), Instr.isOutput c = true → exec c s = .next { s with part := t } →
    Undisturbed s.part t

/-- State that only a few commands write: the tables, the working node number, the store, the ignition lines, the supply
samples, the charging state, the values of inputs, the table window, the COMMIT record and the pins are left alone by
every command but those named. -/
def Obligations.StateWrittenOnlyByItsCommands : Prop :=
  ∀ (c : Instr) (s : State) (t : Part), exec c s = .next { s with part := t } → (∀ v, c ≠ .supplySample v) →
    let u := s.part
    let line := fun l : IgnLine => (∀ h, c ≠ .ignitionLineChange l h) ∧ c ≠ .ignitionDebounceExpiry l
    (c ∉ [Instr.write, .writeNext, .release, .nvLoad] → t.tables = u.tables) ∧
    (c ∉ [Instr.assign, .nvLoad] → t.mgmt.node = u.mgmt.node) ∧
    (c ∉ [Instr.commit, .nvLoad] → (∀ b, c ≠ .commitComplete b) → t.mgmt.store = u.mgmt.store) ∧
    (∀ l, line l → t.power.line l = u.power.line l) ∧
    t.power.samples = u.power.samples ∧
    (c ∉ [Instr.write, .writeNext, .release, .powerOnStart] → t.power.charging = u.power.charging) ∧
    (c ∉ [Instr.switchState, .write, .writeNext, .release] →
      ∀ i, (t.input i).value = (u.input i).value ∧ (t.input i).overLimit = (u.input i).overLimit) ∧
    (c ∉ [Instr.select, .readNext, .writeNext, .release] →
      t.mgmt.windowTable = u.mgmt.windowTable ∧ t.mgmt.windowIndex = u.mgmt.windowIndex) ∧
    (c ≠ .commit → (∀ b, c ≠ .commitComplete b) → t.mgmt.commit = u.mgmt.commit) ∧
    (c ∉ [Instr.nvLoad, .powerOnStart] → t.power.stage = u.power.stage) ∧
    t.nodeStraps = u.nodeStraps ∧ t.cutStrap = u.cutStrap
end

