-- ==== Sys2Proof/Laws/State.lean ====
section
/-! SUPPORT. What each update of a record leaves alone and what it puts in its place: one lemma for each update. -/

namespace Sys2Proof.Machine

@[simp] theorem setPort_frame (s : Part) (p : Port) (r : PortRec) :
    (s.setPort p r).relay = s.relay ∧
    (s.setPort p r).inputs = s.inputs ∧
    (s.setPort p r).channels = s.channels ∧
    (s.setPort p r).arbiter = s.arbiter ∧
    (s.setPort p r).lamps = s.lamps ∧
    (s.setPort p r).fan = s.fan ∧
    (s.setPort p r).gauges = s.gauges ∧
    (s.setPort p r).power = s.power ∧
    (s.setPort p r).mgmt = s.mgmt ∧
    (s.setPort p r).nodeStraps = s.nodeStraps ∧
    (s.setPort p r).cutStrap = s.cutStrap ∧
    (s.setPort p r).limitFirst = s.limitFirst :=
  ⟨rfl, rfl, rfl, rfl, rfl, rfl, rfl, rfl, rfl, rfl, rfl, rfl⟩

@[simp] theorem setRx_frame (s : Part) (p : Port) (r : Rx) :
    (s.setRx p r).relay = s.relay ∧
    (s.setRx p r).inputs = s.inputs ∧
    (s.setRx p r).channels = s.channels ∧
    (s.setRx p r).arbiter = s.arbiter ∧
    (s.setRx p r).lamps = s.lamps ∧
    (s.setRx p r).fan = s.fan ∧
    (s.setRx p r).gauges = s.gauges ∧
    (s.setRx p r).power = s.power ∧
    (s.setRx p r).mgmt = s.mgmt ∧
    (s.setRx p r).nodeStraps = s.nodeStraps ∧
    (s.setRx p r).cutStrap = s.cutStrap ∧
    (s.setRx p r).limitFirst = s.limitFirst :=
  ⟨rfl, rfl, rfl, rfl, rfl, rfl, rfl, rfl, rfl, rfl, rfl, rfl⟩

@[simp] theorem setTx_frame (s : Part) (p : Port) (r : TxState) :
    (s.setTx p r).relay = s.relay ∧
    (s.setTx p r).inputs = s.inputs ∧
    (s.setTx p r).channels = s.channels ∧
    (s.setTx p r).arbiter = s.arbiter ∧
    (s.setTx p r).lamps = s.lamps ∧
    (s.setTx p r).fan = s.fan ∧
    (s.setTx p r).gauges = s.gauges ∧
    (s.setTx p r).power = s.power ∧
    (s.setTx p r).mgmt = s.mgmt ∧
    (s.setTx p r).nodeStraps = s.nodeStraps ∧
    (s.setTx p r).cutStrap = s.cutStrap ∧
    (s.setTx p r).limitFirst = s.limitFirst :=
  ⟨rfl, rfl, rfl, rfl, rfl, rfl, rfl, rfl, rfl, rfl, rfl, rfl⟩

@[simp] theorem count_frame (s : Part) (p : Port) (f : Counters → Counters) :
    (s.count p f).relay = s.relay ∧
    (s.count p f).inputs = s.inputs ∧
    (s.count p f).channels = s.channels ∧
    (s.count p f).arbiter = s.arbiter ∧
    (s.count p f).lamps = s.lamps ∧
    (s.count p f).fan = s.fan ∧
    (s.count p f).gauges = s.gauges ∧
    (s.count p f).power = s.power ∧
    (s.count p f).mgmt = s.mgmt ∧
    (s.count p f).nodeStraps = s.nodeStraps ∧
    (s.count p f).cutStrap = s.cutStrap ∧
    (s.count p f).limitFirst = s.limitFirst :=
  ⟨rfl, rfl, rfl, rfl, rfl, rfl, rfl, rfl, rfl, rfl, rfl, rfl⟩

@[simp] theorem setNodes_frame (s : Part) (r : List NodeEntry) :
    (s.setNodes r).ports = s.ports ∧
    (s.setNodes r).inputs = s.inputs ∧
    (s.setNodes r).channels = s.channels ∧
    (s.setNodes r).arbiter = s.arbiter ∧
    (s.setNodes r).lamps = s.lamps ∧
    (s.setNodes r).fan = s.fan ∧
    (s.setNodes r).gauges = s.gauges ∧
    (s.setNodes r).power = s.power ∧
    (s.setNodes r).mgmt = s.mgmt ∧
    (s.setNodes r).nodeStraps = s.nodeStraps ∧
    (s.setNodes r).cutStrap = s.cutStrap ∧
    (s.setNodes r).limitFirst = s.limitFirst :=
  ⟨rfl, rfl, rfl, rfl, rfl, rfl, rfl, rfl, rfl, rfl, rfl, rfl⟩

@[simp] theorem setOwnQ_frame (s : Part) (p : Port) (q : List OwnEntry) :
    (s.setOwnQ p q).ports = s.ports ∧
    (s.setOwnQ p q).inputs = s.inputs ∧
    (s.setOwnQ p q).channels = s.channels ∧
    (s.setOwnQ p q).arbiter = s.arbiter ∧
    (s.setOwnQ p q).lamps = s.lamps ∧
    (s.setOwnQ p q).fan = s.fan ∧
    (s.setOwnQ p q).gauges = s.gauges ∧
    (s.setOwnQ p q).power = s.power ∧
    (s.setOwnQ p q).mgmt = s.mgmt ∧
    (s.setOwnQ p q).nodeStraps = s.nodeStraps ∧
    (s.setOwnQ p q).cutStrap = s.cutStrap ∧
    (s.setOwnQ p q).limitFirst = s.limitFirst :=
  ⟨rfl, rfl, rfl, rfl, rfl, rfl, rfl, rfl, rfl, rfl, rfl, rfl⟩

@[simp] theorem setRxQ_frame (s : Part) (p : Port) (q : List RxEntry) :
    (s.setRxQ p q).ports = s.ports ∧
    (s.setRxQ p q).inputs = s.inputs ∧
    (s.setRxQ p q).channels = s.channels ∧
    (s.setRxQ p q).arbiter = s.arbiter ∧
    (s.setRxQ p q).lamps = s.lamps ∧
    (s.setRxQ p q).fan = s.fan ∧
    (s.setRxQ p q).gauges = s.gauges ∧
    (s.setRxQ p q).power = s.power ∧
    (s.setRxQ p q).mgmt = s.mgmt ∧
    (s.setRxQ p q).nodeStraps = s.nodeStraps ∧
    (s.setRxQ p q).cutStrap = s.cutStrap ∧
    (s.setRxQ p q).limitFirst = s.limitFirst :=
  ⟨rfl, rfl, rfl, rfl, rfl, rfl, rfl, rfl, rfl, rfl, rfl, rfl⟩

@[simp] theorem setRelayQ_frame (s : Part) (p : Port) (q : List RelayEntry) :
    (s.setRelayQ p q).ports = s.ports ∧
    (s.setRelayQ p q).inputs = s.inputs ∧
    (s.setRelayQ p q).channels = s.channels ∧
    (s.setRelayQ p q).arbiter = s.arbiter ∧
    (s.setRelayQ p q).lamps = s.lamps ∧
    (s.setRelayQ p q).fan = s.fan ∧
    (s.setRelayQ p q).gauges = s.gauges ∧
    (s.setRelayQ p q).power = s.power ∧
    (s.setRelayQ p q).mgmt = s.mgmt ∧
    (s.setRelayQ p q).nodeStraps = s.nodeStraps ∧
    (s.setRelayQ p q).cutStrap = s.cutStrap ∧
    (s.setRelayQ p q).limitFirst = s.limitFirst :=
  ⟨rfl, rfl, rfl, rfl, rfl, rfl, rfl, rfl, rfl, rfl, rfl, rfl⟩

@[simp] theorem setLoss_frame (s : Part) (p : Port) (b : Bool) :
    (s.setLoss p b).ports = s.ports ∧
    (s.setLoss p b).inputs = s.inputs ∧
    (s.setLoss p b).channels = s.channels ∧
    (s.setLoss p b).arbiter = s.arbiter ∧
    (s.setLoss p b).lamps = s.lamps ∧
    (s.setLoss p b).fan = s.fan ∧
    (s.setLoss p b).gauges = s.gauges ∧
    (s.setLoss p b).power = s.power ∧
    (s.setLoss p b).mgmt = s.mgmt ∧
    (s.setLoss p b).nodeStraps = s.nodeStraps ∧
    (s.setLoss p b).cutStrap = s.cutStrap ∧
    (s.setLoss p b).limitFirst = s.limitFirst :=
  ⟨rfl, rfl, rfl, rfl, rfl, rfl, rfl, rfl, rfl, rfl, rfl, rfl⟩

@[simp] theorem setInputs_frame (s : Part) (v : Vector Input 32) :
    (s.setInputs v).ports = s.ports ∧
    (s.setInputs v).relay = s.relay ∧
    (s.setInputs v).channels = s.channels ∧
    (s.setInputs v).arbiter = s.arbiter ∧
    (s.setInputs v).lamps = s.lamps ∧
    (s.setInputs v).fan = s.fan ∧
    (s.setInputs v).gauges = s.gauges ∧
    (s.setInputs v).power = s.power ∧
    (s.setInputs v).mgmt = s.mgmt ∧
    (s.setInputs v).nodeStraps = s.nodeStraps ∧
    (s.setInputs v).cutStrap = s.cutStrap ∧
    (s.setInputs v).limitFirst = s.limitFirst :=
  ⟨rfl, rfl, rfl, rfl, rfl, rfl, rfl, rfl, rfl, rfl, rfl, rfl⟩

@[simp] theorem setInput_frame (s : Part) (i : Fin 32) (x : Input) :
    (s.setInput i x).ports = s.ports ∧
    (s.setInput i x).relay = s.relay ∧
    (s.setInput i x).channels = s.channels ∧
    (s.setInput i x).arbiter = s.arbiter ∧
    (s.setInput i x).lamps = s.lamps ∧
    (s.setInput i x).fan = s.fan ∧
    (s.setInput i x).gauges = s.gauges ∧
    (s.setInput i x).power = s.power ∧
    (s.setInput i x).mgmt = s.mgmt ∧
    (s.setInput i x).nodeStraps = s.nodeStraps ∧
    (s.setInput i x).cutStrap = s.cutStrap ∧
    (s.setInput i x).limitFirst = s.limitFirst :=
  ⟨rfl, rfl, rfl, rfl, rfl, rfl, rfl, rfl, rfl, rfl, rfl, rfl⟩

@[simp] theorem setChan_frame (s : Part) (ch : Fin 25) (c : Chan) :
    (s.setChan ch c).ports = s.ports ∧
    (s.setChan ch c).relay = s.relay ∧
    (s.setChan ch c).inputs = s.inputs ∧
    (s.setChan ch c).arbiter = s.arbiter ∧
    (s.setChan ch c).lamps = s.lamps ∧
    (s.setChan ch c).fan = s.fan ∧
    (s.setChan ch c).gauges = s.gauges ∧
    (s.setChan ch c).power = s.power ∧
    (s.setChan ch c).mgmt = s.mgmt ∧
    (s.setChan ch c).nodeStraps = s.nodeStraps ∧
    (s.setChan ch c).cutStrap = s.cutStrap ∧
    (s.setChan ch c).limitFirst = s.limitFirst :=
  ⟨rfl, rfl, rfl, rfl, rfl, rfl, rfl, rfl, rfl, rfl, rfl, rfl⟩

@[simp] theorem setLampNodes_frame (s : Part) (rs : List LampNode) :
    (s.setLampNodes rs).ports = s.ports ∧
    (s.setLampNodes rs).relay = s.relay ∧
    (s.setLampNodes rs).inputs = s.inputs ∧
    (s.setLampNodes rs).arbiter = s.arbiter ∧
    (s.setLampNodes rs).lamps = s.lamps ∧
    (s.setLampNodes rs).fan = s.fan ∧
    (s.setLampNodes rs).gauges = s.gauges ∧
    (s.setLampNodes rs).power = s.power ∧
    (s.setLampNodes rs).mgmt = s.mgmt ∧
    (s.setLampNodes rs).nodeStraps = s.nodeStraps ∧
    (s.setLampNodes rs).cutStrap = s.cutStrap ∧
    (s.setLampNodes rs).limitFirst = s.limitFirst :=
  ⟨rfl, rfl, rfl, rfl, rfl, rfl, rfl, rfl, rfl, rfl, rfl, rfl⟩

@[simp] theorem onLampNode_frame (s : Part) (n : Nat) (f : LampNode → LampNode) :
    (s.onLampNode n f).ports = s.ports ∧
    (s.onLampNode n f).relay = s.relay ∧
    (s.onLampNode n f).inputs = s.inputs ∧
    (s.onLampNode n f).arbiter = s.arbiter ∧
    (s.onLampNode n f).lamps = s.lamps ∧
    (s.onLampNode n f).fan = s.fan ∧
    (s.onLampNode n f).gauges = s.gauges ∧
    (s.onLampNode n f).power = s.power ∧
    (s.onLampNode n f).mgmt = s.mgmt ∧
    (s.onLampNode n f).nodeStraps = s.nodeStraps ∧
    (s.onLampNode n f).cutStrap = s.cutStrap ∧
    (s.onLampNode n f).limitFirst = s.limitFirst :=
  ⟨rfl, rfl, rfl, rfl, rfl, rfl, rfl, rfl, rfl, rfl, rfl, rfl⟩

@[simp] theorem setArbiter_frame (s : Part) (a : Arbiter) :
    (s.setArbiter a).ports = s.ports ∧
    (s.setArbiter a).relay = s.relay ∧
    (s.setArbiter a).inputs = s.inputs ∧
    (s.setArbiter a).channels = s.channels ∧
    (s.setArbiter a).lamps = s.lamps ∧
    (s.setArbiter a).fan = s.fan ∧
    (s.setArbiter a).gauges = s.gauges ∧
    (s.setArbiter a).power = s.power ∧
    (s.setArbiter a).mgmt = s.mgmt ∧
    (s.setArbiter a).nodeStraps = s.nodeStraps ∧
    (s.setArbiter a).cutStrap = s.cutStrap ∧
    (s.setArbiter a).limitFirst = s.limitFirst :=
  ⟨rfl, rfl, rfl, rfl, rfl, rfl, rfl, rfl, rfl, rfl, rfl, rfl⟩

@[simp] theorem setFlasher_frame (s : Part) (f : Flasher) :
    (s.setFlasher f).ports = s.ports ∧
    (s.setFlasher f).relay = s.relay ∧
    (s.setFlasher f).inputs = s.inputs ∧
    (s.setFlasher f).channels = s.channels ∧
    (s.setFlasher f).arbiter = s.arbiter ∧
    (s.setFlasher f).fan = s.fan ∧
    (s.setFlasher f).gauges = s.gauges ∧
    (s.setFlasher f).power = s.power ∧
    (s.setFlasher f).mgmt = s.mgmt ∧
    (s.setFlasher f).nodeStraps = s.nodeStraps ∧
    (s.setFlasher f).cutStrap = s.cutStrap ∧
    (s.setFlasher f).limitFirst = s.limitFirst :=
  ⟨rfl, rfl, rfl, rfl, rfl, rfl, rfl, rfl, rfl, rfl, rfl, rfl⟩

@[simp] theorem setFan_frame (s : Part) (f : Fan) :
    (s.setFan f).ports = s.ports ∧
    (s.setFan f).relay = s.relay ∧
    (s.setFan f).inputs = s.inputs ∧
    (s.setFan f).channels = s.channels ∧
    (s.setFan f).arbiter = s.arbiter ∧
    (s.setFan f).lamps = s.lamps ∧
    (s.setFan f).gauges = s.gauges ∧
    (s.setFan f).power = s.power ∧
    (s.setFan f).mgmt = s.mgmt ∧
    (s.setFan f).nodeStraps = s.nodeStraps ∧
    (s.setFan f).cutStrap = s.cutStrap ∧
    (s.setFan f).limitFirst = s.limitFirst :=
  ⟨rfl, rfl, rfl, rfl, rfl, rfl, rfl, rfl, rfl, rfl, rfl, rfl⟩

@[simp] theorem setGauge_frame (s : Part) (g : Fin 4) (r : Gauge) :
    (s.setGauge g r).ports = s.ports ∧
    (s.setGauge g r).relay = s.relay ∧
    (s.setGauge g r).inputs = s.inputs ∧
    (s.setGauge g r).channels = s.channels ∧
    (s.setGauge g r).arbiter = s.arbiter ∧
    (s.setGauge g r).lamps = s.lamps ∧
    (s.setGauge g r).fan = s.fan ∧
    (s.setGauge g r).power = s.power ∧
    (s.setGauge g r).mgmt = s.mgmt ∧
    (s.setGauge g r).nodeStraps = s.nodeStraps ∧
    (s.setGauge g r).cutStrap = s.cutStrap ∧
    (s.setGauge g r).limitFirst = s.limitFirst :=
  ⟨rfl, rfl, rfl, rfl, rfl, rfl, rfl, rfl, rfl, rfl, rfl, rfl⟩

@[simp] theorem setPower_frame (s : Part) (p : Power) :
    (s.setPower p).ports = s.ports ∧
    (s.setPower p).relay = s.relay ∧
    (s.setPower p).inputs = s.inputs ∧
    (s.setPower p).channels = s.channels ∧
    (s.setPower p).arbiter = s.arbiter ∧
    (s.setPower p).lamps = s.lamps ∧
    (s.setPower p).fan = s.fan ∧
    (s.setPower p).gauges = s.gauges ∧
    (s.setPower p).mgmt = s.mgmt ∧
    (s.setPower p).nodeStraps = s.nodeStraps ∧
    (s.setPower p).cutStrap = s.cutStrap ∧
    (s.setPower p).limitFirst = s.limitFirst :=
  ⟨rfl, rfl, rfl, rfl, rfl, rfl, rfl, rfl, rfl, rfl, rfl, rfl⟩

@[simp] theorem setTables_frame (s : Part) (t : Tables) :
    (s.setTables t).ports = s.ports ∧
    (s.setTables t).relay = s.relay ∧
    (s.setTables t).inputs = s.inputs ∧
    (s.setTables t).channels = s.channels ∧
    (s.setTables t).arbiter = s.arbiter ∧
    (s.setTables t).lamps = s.lamps ∧
    (s.setTables t).fan = s.fan ∧
    (s.setTables t).gauges = s.gauges ∧
    (s.setTables t).power = s.power ∧
    (s.setTables t).nodeStraps = s.nodeStraps ∧
    (s.setTables t).cutStrap = s.cutStrap ∧
    (s.setTables t).limitFirst = s.limitFirst :=
  ⟨rfl, rfl, rfl, rfl, rfl, rfl, rfl, rfl, rfl, rfl, rfl, rfl⟩

@[simp] theorem setHold_frame (s : Part) (h : List Reply) :
    (s.setHold h).ports = s.ports ∧
    (s.setHold h).relay = s.relay ∧
    (s.setHold h).inputs = s.inputs ∧
    (s.setHold h).channels = s.channels ∧
    (s.setHold h).arbiter = s.arbiter ∧
    (s.setHold h).lamps = s.lamps ∧
    (s.setHold h).fan = s.fan ∧
    (s.setHold h).gauges = s.gauges ∧
    (s.setHold h).power = s.power ∧
    (s.setHold h).nodeStraps = s.nodeStraps ∧
    (s.setHold h).cutStrap = s.cutStrap ∧
    (s.setHold h).limitFirst = s.limitFirst :=
  ⟨rfl, rfl, rfl, rfl, rfl, rfl, rfl, rfl, rfl, rfl, rfl, rfl⟩

@[simp] theorem markActive_frame (s : Part) (c : Cond) (b : Bool) :
    (s.markActive c b).ports = s.ports ∧
    (s.markActive c b).relay = s.relay ∧
    (s.markActive c b).inputs = s.inputs ∧
    (s.markActive c b).channels = s.channels ∧
    (s.markActive c b).arbiter = s.arbiter ∧
    (s.markActive c b).lamps = s.lamps ∧
    (s.markActive c b).fan = s.fan ∧
    (s.markActive c b).gauges = s.gauges ∧
    (s.markActive c b).power = s.power ∧
    (s.markActive c b).nodeStraps = s.nodeStraps ∧
    (s.markActive c b).cutStrap = s.cutStrap ∧
    (s.markActive c b).limitFirst = s.limitFirst :=
  ⟨rfl, rfl, rfl, rfl, rfl, rfl, rfl, rfl, rfl, rfl, rfl, rfl⟩

@[simp] theorem setArbiter_arbiter (s : Part) (a : Arbiter) : (s.setArbiter a).arbiter = a := rfl
@[simp] theorem setFan_fan (s : Part) (f : Fan) : (s.setFan f).fan = f := rfl
@[simp] theorem setPower_power (s : Part) (p : Power) : (s.setPower p).power = p := rfl
@[simp] theorem setInputs_inputs (s : Part) (v : Vector Input 32) : (s.setInputs v).inputs = v := rfl
@[simp] theorem setFlasher_flasher (s : Part) (f : Flasher) : (s.setFlasher f).lamps.flasher = f := rfl
@[simp] theorem setNodes_nodes (s : Part) (r : List NodeEntry) : (s.setNodes r).relay.nodes = r := rfl
@[simp] theorem setTables_tables (s : Part) (t : Tables) : (s.setTables t).mgmt.tables = t := rfl

@[simp] theorem get_set_same {α : Type} (v : PerPort α) (p : Port) (x : α) : (v.set p x).get p = x := by
  cases p <;> rfl

theorem get_set_ne {α : Type} (v : PerPort α) {p q : Port} (x : α) (h : p ≠ q) : (v.set p x).get q = v.get q := by
  cases p <;> cases q <;> first | rfl | exact absurd rfl h

@[simp] theorem get_set_other {α : Type} (v : PerPort α) (p : Port) (x : α) :
    (v.set p x).get p.other = v.get p.other := by
  cases p <;> rfl

@[simp] theorem get_other_set {α : Type} (v : PerPort α) (p : Port) (x : α) :
    (v.set p.other x).get p = v.get p := by
  cases p <;> rfl

@[simp] theorem other_other (p : Port) : p.other.other = p := by cases p <;> rfl

@[simp] theorem setPort_port (s : Part) (p : Port) (r : PortRec) : (s.setPort p r).port p = r := get_set_same ..

@[simp] theorem setPort_other (s : Part) (p : Port) (r : PortRec) : (s.setPort p r).port p.other = s.port p.other :=
  get_set_other ..

@[simp] theorem setPort_other' (s : Part) (p : Port) (r : PortRec) : (s.setPort p.other r).port p = s.port p :=
  get_other_set ..

@[simp] theorem setChan_chan (s : Part) (ch : Fin 25) (c : Chan) : (s.setChan ch c).chan ch = c := put_get_same ..

theorem setChan_ne (s : Part) {ch k : Fin 25} (c : Chan) (h : ch ≠ k) : (s.setChan ch c).chan k = s.chan k :=
  put_get_ne _ _ h

@[simp] theorem setGauge_gauge (s : Part) (g : Fin 4) (r : Gauge) : (s.setGauge g r).gauge g = r := put_get_same ..

theorem setGauge_ne (s : Part) {g k : Fin 4} (r : Gauge) (h : g ≠ k) : (s.setGauge g r).gauge k = s.gauge k :=
  put_get_ne _ _ h

@[simp] theorem setInput_input (s : Part) (i : Fin 32) (x : Input) : (s.setInput i x).input i = x := put_get_same ..

@[simp] theorem setOwnQ_ownQ (s : Part) (p : Port) (q : List OwnEntry) : (s.setOwnQ p q).ownQ p = q := get_set_same ..

@[simp] theorem setRxQ_rxQ (s : Part) (p : Port) (q : List RxEntry) : (s.setRxQ p q).rxQ p = q := get_set_same ..

@[simp] theorem setRelayQ_relayQ (s : Part) (p : Port) (q : List RelayEntry) : (s.setRelayQ p q).relayQ p = q :=
  get_set_same ..

/-- Every command moves the part on and leaves the waiting commands alone. -/
@[simp] theorem nextPart_eq (s : State) (p : Part) : s.nextPart p = .next { s with part := p } := rfl

end Sys2Proof.Machine
end

