-- ==== Sys2Proof/Laws/Reaction.lean ====
section
/-! SUPPORT. What the reactions of the blocks within an event can do: they leave the link, the tables and the inputs
alone, lose no reply, and keep the laws of the budget, the gauges and the reference. One lemma for each shared
operation. -/

namespace Sys2Proof.Machine

/-! ### The relation -/

/-- What every reaction of the blocks keeps. -/
structure Reaction (s t : Part) : Prop where
  still : Undisturbed s t
  replies : ∀ p (e : OwnEntry), e.isReply = true → e ∈ s.ownQ p → e ∈ t.ownQ p
  held : ∀ r ∈ s.mgmt.hold, r ∈ t.mgmt.hold
  ownQ : ∀ p, (s.ownQ p).length ≤ (t.ownQ p).length ∧ ((s.ownQ p).length ≤ 8 → (t.ownQ p).length ≤ 8)
  claims : s.claimsOk → t.claimsOk
  budget : s.budgetOk → t.budgetOk
  gauges : s.gaugesOk → t.gaugesOk
  reference : s.referenceOk → t.referenceOk

theorem Reaction.refl (s : Part) : Reaction s s :=
  ⟨rfl, fun _ _ _ h => h, fun _ h => h, fun _ => ⟨Nat.le_refl _, id⟩, id, id, id, id⟩

theorem Reaction.trans {s t u : Part} (h : Reaction s t) (k : Reaction t u) : Reaction s u :=
  ⟨Eq.trans k.still h.still, fun p e he h' => k.replies p e he (h.replies p e he h'),
   fun r h' => k.held r (h.held r h'),
   fun p => ⟨Nat.le_trans (h.ownQ p).1 (k.ownQ p).1, (k.ownQ p).2 ∘ (h.ownQ p).2⟩, k.claims ∘ h.claims, k.budget ∘ h.budget, k.gauges ∘ h.gauges, k.reference ∘ h.reference⟩

theorem Reaction.foldl {α : Type} {f : Part → α → Part} (hf : ∀ s x, Reaction s (f s x)) (xs : List α) (s : Part) :
    Reaction s (xs.foldl f s) := by
  induction xs generalizing s with
  | nil => exact .refl s
  | cons x xs ih => exact (hf s x).trans (ih _)

/-- A reaction relates a part to itself or to what one branch makes of it. -/
theorem Reaction.ite {s a b : Part} {c : Prop} [Decidable c] (ha : Reaction s a) (hb : Reaction s b) :
    Reaction s (if c then a else b) := by
  split
  · exact ha
  · exact hb

/-! ### Single updates -/

theorem Reaction.setChan (s : Part) (ch : Fin 25) (c : Chan) : Reaction s (s.setChan ch c) :=
  ⟨rfl, fun _ _ _ h => h, fun _ h => h, fun _ => ⟨Nat.le_refl _, id⟩, id, id, id, id⟩

theorem Reaction.setLampNodes (s : Part) (rs : List LampNode) : Reaction s (s.setLampNodes rs) :=
  ⟨rfl, fun _ _ _ h => h, fun _ h => h, fun _ => ⟨Nat.le_refl _, id⟩, id, id, id, id⟩

theorem Reaction.onLampNode (s : Part) (n : Nat) (f : LampNode → LampNode) : Reaction s (s.onLampNode n f) :=
  .setLampNodes ..

theorem Reaction.setFlasher (s : Part) (f : Flasher) : Reaction s (s.setFlasher f) :=
  ⟨rfl, fun _ _ _ h => h, fun _ h => h, fun _ => ⟨Nat.le_refl _, id⟩, id, id, id, id⟩

theorem Reaction.setFan (s : Part) (f : Fan) : Reaction s (s.setFan f) :=
  ⟨rfl, fun _ _ _ h => h, fun _ h => h, fun _ => ⟨Nat.le_refl _, id⟩, id, id, id, id⟩

theorem Reaction.setLamps (s : Part) (l : Lamps) : Reaction s { s with lamps := l } :=
  ⟨rfl, fun _ _ _ h => h, fun _ h => h, fun _ => ⟨Nat.le_refl _, id⟩, id, id, id, id⟩

theorem Reaction.setChannels (s : Part) (c : Channels) : Reaction s { s with channels := c } :=
  ⟨rfl, fun _ _ _ h => h, fun _ h => h, fun _ => ⟨Nat.le_refl _, id⟩, id, id, id, id⟩

/-- Of the power manager's fields, mode, settled flag and reference stay. -/
theorem Reaction.setPower (s : Part) (i : Interval) (d : Bool) (q : Option Nat) :
    Reaction s (s.setPower { s.power with interval := i, deferral := d, quiet := q }) :=
  ⟨rfl, fun _ _ _ h => h, fun _ h => h, fun _ => ⟨Nat.le_refl _, id⟩, id, id, id, id⟩

theorem Reaction.setOwed (s : Part) (b : Bool) : Reaction s { s with mgmt := { s.mgmt with owed := b } } :=
  ⟨rfl, fun _ _ _ h => h, fun _ h => h, fun _ => ⟨Nat.le_refl _, id⟩, id, id, id, id⟩

theorem Reaction.setChanged (s : Part) (v : BitVec 16) : Reaction s { s with mgmt := { s.mgmt with changed := v } } :=
  ⟨rfl, fun _ _ _ h => h, fun _ h => h, fun _ => ⟨Nat.le_refl _, id⟩, id, id, id, id⟩

theorem Reaction.setSleep (s : Part) (q : Option Request) : Reaction s { s with mgmt := { s.mgmt with sleep := q } } :=
  ⟨rfl, fun _ _ _ h => h, fun _ h => h, fun _ => ⟨Nat.le_refl _, id⟩, id, id, id, id⟩

/-- An own transmit queue that keeps its replies, gives up no place and stays within its places. -/
theorem Reaction.setOwnQ (s : Part) (p : Port) (q : List OwnEntry)
    (h : ∀ e : OwnEntry, e.isReply = true → e ∈ s.ownQ p → e ∈ q)
    (hl : (s.ownQ p).length ≤ q.length ∧ ((s.ownQ p).length ≤ 8 → q.length ≤ 8)) : Reaction s (s.setOwnQ p q) := by
  refine ⟨?_, ?_, fun _ h => h, fun r => ?_, id, id, id, id⟩
  · cases p <;> rfl
  · intro r e he hm
    by_cases hr : p = r
    · subst hr; rw [setOwnQ_ownQ]; exact h e he hm
    · show e ∈ (s.relay.ownQueue.set p q).get r
      rw [get_set_ne _ _ hr]; exact hm
  · by_cases hr : p = r
    · subst hr; rw [setOwnQ_ownQ]; exact hl
    · show (s.ownQ r).length ≤ ((s.relay.ownQueue.set p q).get r).length
        ∧ (_ → ((s.relay.ownQueue.set p q).get r).length ≤ 8)
      rw [get_set_ne _ _ hr]; exact ⟨Nat.le_refl _, id⟩

/-- A gauge that is driven only where it, or the settled flag, was. -/
theorem Reaction.setGauge (s : Part) (g : Fin 4) (r : Gauge)
    (h : s.power.settled = false → r.state.driven = true → (s.gauge g).state.driven = true) :
    Reaction s (s.setGauge g r) := by
  refine ⟨rfl, fun _ _ _ h => h, fun _ h => h, fun _ => ⟨Nat.le_refl _, id⟩, id, id, ?_, id⟩
  rintro ⟨h1, h2⟩
  refine ⟨h1, fun hs k => ?_⟩
  by_cases e : g = k
  · subst e
    rw [setGauge_gauge]
    cases hd : r.state.driven
    · rfl
    · exact absurd (h hs hd) (by simp [h2 hs g])
  · rw [setGauge_ne _ _ e]; exact h2 hs k

/-- A gauge that is not driven afterwards. -/
theorem Reaction.setGauge_undriven (s : Part) (g : Fin 4) (r : Gauge) (h : r.state.driven = false) :
    Reaction s (s.setGauge g r) :=
  .setGauge s g r fun _ h' => absurd h' (by simp [h])

/-! ### The own transmit queues -/

theorem enqueue_keeps (e x : OwnEntry) (q : List OwnEntry) (hx : x.isReply = true) (h : x ∈ q) : x ∈ enqueue e q := by
  unfold enqueue
  split
  · refine List.mem_map.2 ⟨x, h, ?_⟩
    have : x.isLampCommand = false := by
      cases x with
      | mk d s b => cases b <;> simp_all [OwnEntry.isReply, OwnEntry.isLampCommand, OwnEntry.urgent]
    simp [this]
  · split
    · exact List.mem_append_left _ h
    · exact h

/-- A frame more gives up no place of a queue and keeps it within its 8 places (02: R40). -/
theorem enqueue_length (e : OwnEntry) (q : List OwnEntry) :
    q.length ≤ (enqueue e q).length ∧ (q.length ≤ 8 → (enqueue e q).length ≤ 8) := by
  unfold enqueue
  split
  · simp
  · split
    · rename_i h
      rw [List.length_append]
      exact ⟨Nat.le_add_right _ _, fun _ => h⟩
    · exact ⟨Nat.le_refl _, id⟩

theorem Reaction.queueOwn (e : OwnEntry) (s : Part) (p : Port) : Reaction s (queueOwn e s p) := by
  unfold Machine.queueOwn
  exact .ite (.refl s) (.setOwnQ _ _ _ (fun x hx h => enqueue_keeps e x _ hx h) (enqueue_length e _))

theorem Reaction.originate (n : Nat) (b : OwnBody) (s : Part) : Reaction s (originate n b s) :=
  .foldl (fun s p => .queueOwn _ s p) _ s

theorem Reaction.requestNotice (s : Part) : Reaction s (requestNotice s) := by
  unfold Machine.requestNotice
  exact .ite (.refl s) (.originate _ _ s)

/-- A reply handed over or held is lost to nobody. -/
theorem Reaction.prepareReply (r : Reply) (s : Part) : Reaction s (prepareReply r s) := by
  unfold Machine.prepareReply
  refine .ite ⟨rfl, fun _ _ _ h => h, fun _ h => List.mem_append_left _ h,
    fun _ => ⟨Nat.le_refl _, id⟩, id, id, id, id⟩ ?_
  exact .queueOwn _ s _

theorem Reaction.answerRequest (q : Request) (a : Answer) (s : Part) : Reaction s (answerRequest q a s) :=
  .prepareReply _ s

theorem Reaction.answerSleep (st : Status) (s : Part) : Reaction s (answerSleep st s) := by
  unfold Machine.answerSleep
  split
  · exact .refl s
  · exact (Reaction.setSleep s _).trans (.answerRequest _ _ _)

/-! ### Conditions -/

theorem putBit_getLsbD (v : BitVec 16) (n i : Nat) (b : Bool) (hi : i < 16) :
    (putBit v n b).getLsbD i = if i = n then b else v.getLsbD i := by
  unfold putBit
  by_cases h : i = n
  · subst h; cases b <;> simp [hi]
  · have h' : (1#16 <<< n).getLsbD i = false := by
      simp only [BitVec.getLsbD_shiftLeft, BitVec.getLsbD_one]
      by_cases hl : i < n
      · simp [hl]
      · have : i - n ≠ 0 := by omega
        simp [this]
    cases b
    · simp only [Bool.false_eq_true, if_false, BitVec.getLsbD_and, BitVec.getLsbD_not, h', hi, h]; simp
    · simp only [if_true, BitVec.getLsbD_or, h', h, Bool.or_false, if_false]

/-- A condition whose flag the blocks' reactions may write. -/
def Cond.followed (c : Cond) : Bool :=
  match c with
  | .nodeTableFull | .queueLoss | .lowSupply | .nvFault => false
  | _ => true

theorem putBit_ownMask (v : BitVec 16) (c : Cond) (b : Bool) (h : c.followed = true) :
    putBit v c.num b &&& ownMask = v &&& ownMask := by
  apply BitVec.eq_of_getLsbD_eq
  intro i hi
  have hm : i = c.num → ownMask.getLsbD i = false := by
    intro e; subst e
    cases c <;> first | rfl | exact absurd h (by decide)
  rw [BitVec.getLsbD_and, BitVec.getLsbD_and, putBit_getLsbD _ _ _ _ hi]
  by_cases e : i = c.num
  · rw [hm e]; simp
  · rw [if_neg e]

theorem Reaction.markActive (c : Cond) (b : Bool) (s : Part) (h : c.followed = true) :
    Reaction s (s.markActive c b) := by
  refine ⟨?_, fun _ _ _ h => h, fun _ h => h, fun _ => ⟨Nat.le_refl _, id⟩, id, id, id, id⟩
  simp only [Undisturbed, Part.still, Part.markActive, putBit_ownMask _ c b h]

theorem Reaction.oweNotice (c : Cond) (s : Part) : Reaction s (oweNotice c s) := by
  unfold Machine.oweNotice
  refine .ite ?_ (.refl s)
  exact (Reaction.setOwed s true).trans (.requestNotice _)

theorem Reaction.setCond (c : Cond) (b : Bool) (s : Part) (h : c.followed = true) : Reaction s (setCond c b s) := by
  unfold Machine.setCond
  refine .ite (.refl s) (Reaction.trans (.markActive c b s h) (.ite (.refl _) ?_))
  exact (Reaction.setChanged _ _).trans (.oweNotice c _)

theorem levelCauses_followed (s : Part) : ∀ x ∈ levelCauses s, x.1.followed = true := by
  intro x hx
  simp only [levelCauses, List.mem_cons, List.not_mem_nil, or_false] at hx
  rcases hx with rfl | rfl | rfl | rfl | rfl | rfl | rfl | rfl | rfl | rfl | rfl <;> rfl

theorem Reaction.foldl_setCond (l : List (Cond × Bool)) (h : ∀ x ∈ l, x.1.followed = true) (s : Part) :
    Reaction s (l.foldl (fun t x => Machine.setCond x.1 x.2 t) s) := by
  induction l generalizing s with
  | nil => exact .refl s
  | cons x l ih =>
    exact (Reaction.setCond x.1 x.2 s (h x (by simp))).trans (ih (fun y hy => h y (by simp [hy])) _)

theorem Reaction.syncConds (s : Part) : Reaction s (syncConds s) := by
  unfold Machine.syncConds
  exact .ite (.foldl_setCond _ (levelCauses_followed s) s) (.refl s)

/-! ### Lights -/

theorem Reaction.commandNode (s : Part) (n : Nat) : Reaction s (commandNode s n) := by
  unfold Machine.commandNode
  split
  · exact .refl s
  · exact .ite (.refl s) ((Reaction.originate _ _ s).trans (.onLampNode _ _ _))

theorem Reaction.refreshMasks (s : Part) : Reaction s (refreshMasks s) :=
  (Reaction.setLampNodes s _).trans (.foldl (fun s n => .commandNode s n) _ _)

theorem Reaction.dropTimers (s : Part) : Reaction s (dropTimers s) := .setChannels s _

theorem Reaction.onEdge (r : FlashRate) (s : Part) : Reaction s (onEdge r s) :=
  (Reaction.setFlasher s _).trans (.setChannels _ _)

theorem Reaction.flashStart (s : Part) : Reaction s (flashStart s) := .ite (.onEdge _ s) (.refl s)

theorem Reaction.noteFault (ch : Fin 25) (s : Part) : Reaction s (noteFault ch s) := .ite (.setFlasher s _) (.refl s)

theorem Reaction.settleLights (s : Part) : Reaction s (settleLights s) :=
  ((Reaction.flashStart s).trans (.dropTimers _)).trans (.refreshMasks _)

/-! ### Fan and gauges at grants and sheds -/

theorem Reaction.fanGranted (s : Part) : Reaction s (fanGranted s) := .setFan s _

theorem Reaction.fanShed (s : Part) : Reaction s (fanShed s) := .setFan s _

theorem Reaction.fanStopped (s : Part) : Reaction s (fanStopped s) := .setFan s _

theorem Reaction.undrive (g : Fin 4) (st : GaugeState) (s : Part) (h : st.driven = false) :
    Reaction s (undrive g st s) :=
  .setGauge_undriven s g _ h

theorem Reaction.leaveSettling (g : Fin 4) (s : Part) : Reaction s (leaveSettling g s) := by
  unfold Machine.leaveSettling
  split
  · rename_i h
    exact .setGauge s g _ fun hs => by simp [hs] at h
  · exact .refl s

theorem Reaction.gaugeShed (g : Fin 4) (s : Part) : Reaction s (gaugeShed g s) := by
  unfold Machine.gaugeShed
  split
  all_goals first | exact .undrive g _ s rfl | exact .refl s

theorem Reaction.handGrant (ch : Fin 25) (s : Part) : Reaction s (handGrant ch s) := by
  unfold Machine.handGrant
  split
  all_goals first
    | exact (Reaction.setChan s _ _).trans (.settleLights _)
    | exact .fanGranted s
    | exact .leaveSettling _ s

theorem Reaction.handShed (ch : Fin 25) (s : Part) : Reaction s (handShed ch s) := by
  unfold Machine.handShed
  split
  all_goals first
    | exact (Reaction.setChan s _ _).trans (.settleLights _)
    | exact .fanShed s
    | exact .gaugeShed _ s

end Sys2Proof.Machine
end

