-- ==== Sys2Proof/Laws/Budget.lean ====
section
/-! SUPPORT. What the operations of the budget arbiter can do (05): each keeps the budget law and is a reaction. -/

namespace Sys2Proof.Machine

/-! ### The committed total -/

theorem sum_replaced (f : Fin 25 → Nat) (ch : Fin 25) (x : Nat) (l : List (Fin 25)) (hl : l.Nodup) (hc : ch ∈ l) :
    (l.map fun c => if ch = c then x else f c).sum + f ch = (l.map f).sum + x := by
  induction l with
  | nil => cases hc
  | cons c l ih =>
    simp only [List.map_cons, List.sum_cons]
    by_cases h : ch = c
    · subst h
      have hn : ch ∉ l := (List.nodup_cons.1 hl).1
      have : (l.map fun c => if ch = c then x else f c) = l.map f :=
        List.map_congr_left fun c hc' => if_neg fun (e : ch = c) => hn (e.symm ▸ hc')
      rw [this, if_pos rfl]; omega
    · have hc' : ch ∈ l := by
        rcases List.mem_cons.1 hc with e | e
        · exact absurd e h
        · exact e
      have := ih (List.nodup_cons.1 hl).2 hc'
      rw [if_neg h]; omega

theorem mem_allChans (ch : Fin 25) : ch ∈ allChans := List.mem_finRange ch

theorem committed_put (a : Arbiter) (ch : Fin 25) (x : Nat) (order : List (Fin 25)) (claims : List Claim) :
    Arbiter.committed { a with grants := put a.grants ch x, order := order, claims := claims } + a.grants.get ch
      = a.committed + x := by
  have := sum_replaced a.grants.get ch x allChans (List.nodup_finRange 25) (mem_allChans ch)
  simp only [Arbiter.committed]
  rw [← this]
  congr 2
  exact List.map_congr_left fun c _ => put_get ..

theorem le_committed (a : Arbiter) (ch : Fin 25) : a.grants.get ch ≤ a.committed := by
  have := sum_replaced a.grants.get ch 0 allChans (List.nodup_finRange 25) (mem_allChans ch)
  unfold Arbiter.committed
  omega

/-- The committed total is 0 when nobody holds a grant. -/
theorem committed_zero (a : Arbiter) (h : ∀ ch, a.grants.get ch = 0) : a.committed = 0 := by
  unfold Arbiter.committed
  have : (allChans.map a.grants.get) = allChans.map fun _ => 0 := List.map_congr_left fun c _ => h c
  rw [this]
  rfl

theorem committed_empty : Arbiter.empty.committed = 0 :=
  committed_zero _ fun ch => by simp [Arbiter.empty]

/-- A holder of a grant stands in the grant order. -/
def Arbiter.ordered (a : Arbiter) : Prop := ∀ ch, 0 < a.grants.get ch → ch ∈ a.order

theorem lower_grants (a : Arbiter) (ch c : Fin 25) (keep : Nat) :
    (a.lower ch keep).grants.get c = if ch = c then min keep (a.grants.get ch) else a.grants.get c := put_get ..

theorem lower_committed_le (a : Arbiter) (ch : Fin 25) (keep : Nat) : (a.lower ch keep).committed ≤ a.committed := by
  have := committed_put a ch (min keep (a.grants.get ch)) (a.lower ch keep).order a.claims
  have h : Arbiter.committed { a with
    grants := put a.grants ch (min keep (a.grants.get ch)), order := (a.lower ch keep).order, claims := a.claims }
    = (a.lower ch keep).committed := rfl
  rw [h] at this
  omega

theorem lower_ordered (a : Arbiter) (ch : Fin 25) (keep : Nat) (h : a.ordered) : (a.lower ch keep).ordered := by
  intro c hc
  rw [lower_grants] at hc
  simp only [Arbiter.lower]
  by_cases e : ch = c
  · subst e
    rw [if_pos rfl] at hc
    rw [if_neg (by omega)]
    exact h ch (by omega)
  · rw [if_neg e] at hc
    split
    · exact List.mem_filter.2 ⟨h c hc, by simpa using fun e' => e e'.symm⟩
    · exact h c hc

theorem vacate_grants (a : Arbiter) (ch c : Fin 25) :
    (a.vacate ch).grants.get c = if ch = c then 0 else a.grants.get c := by
  simp [Arbiter.vacate, lower_grants, Arbiter.unclaim]

@[simp] theorem vacate_limit (a : Arbiter) (ch : Fin 25) : (a.vacate ch).limit = a.limit := rfl

@[simp] theorem lower_limit (a : Arbiter) (ch : Fin 25) (k : Nat) : (a.lower ch k).limit = a.limit := rfl

theorem vacate_committed_le (a : Arbiter) (ch : Fin 25) : (a.vacate ch).committed ≤ a.committed :=
  lower_committed_le (a.unclaim ch) ch 0

theorem vacate_ordered (a : Arbiter) (ch : Fin 25) (h : a.ordered) : (a.vacate ch).ordered :=
  lower_ordered (a.unclaim ch) ch 0 h

theorem give_ordered (a : Arbiter) (ch : Fin 25) (amount : Nat) (h : a.ordered) : (a.give ch amount).ordered := by
  intro c hc
  simp only [Arbiter.give, List.mem_append, List.mem_filter, List.mem_singleton] at hc ⊢
  by_cases e : ch = c
  · exact .inr e.symm
  · rw [put_get_ne _ _ e] at hc
    exact .inl ⟨h c hc, by simpa using fun e' => e e'.symm⟩

theorem give_committed (a : Arbiter) (ch : Fin 25) (amount : Nat) :
    (a.give ch amount).committed = a.committed + amount := by
  have := committed_put a ch (a.grants.get ch + amount) (a.give ch amount).order a.claims
  have h : Arbiter.committed { a with
    grants := put a.grants ch (a.grants.get ch + amount), order := (a.give ch amount).order, claims := a.claims }
    = (a.give ch amount).committed := rfl
  rw [h] at this
  omega

/-! ### The claim queue -/

/-- A claim that joins is added to the queue, whatever its place. -/
theorem insertClaim_perm (c : Claim) (cs : List Claim) : (insertClaim c cs).Perm (c :: cs) := by
  induction cs with
  | nil => exact .refl _
  | cons x xs ih =>
    unfold insertClaim
    split
    · exact .refl _
    · exact (ih.cons x).trans (.swap c x xs)

/-- A claim of a channel with none waiting joins in order (R86). -/
theorem insertClaim_inClaimOrder (c : Claim) (cs : List Claim) (h : inClaimOrder cs) (hc : ∀ x ∈ cs, x.chan ≠ c.chan) :
    inClaimOrder (insertClaim c cs) := by
  refine ⟨?_, ?_⟩
  · have hp := h.1
    clear h hc
    induction cs with
    | nil => simp [insertClaim]
    | cons x xs ih =>
      rw [List.pairwise_cons] at hp
      unfold insertClaim
      split
      · rename_i hlt
        refine List.pairwise_cons.2 ⟨fun y hy => ?_, List.pairwise_cons.2 hp⟩
        rcases List.mem_cons.1 hy with rfl | hy
        · omega
        · have := hp.1 y hy; omega
      · refine List.pairwise_cons.2 ⟨fun y hy => ?_, ih hp.2⟩
        rcases List.mem_cons.1 ((insertClaim_perm c xs).mem_iff.1 hy) with rfl | hy
        · omega
        · exact hp.1 y hy
  · rw [((insertClaim_perm c cs).map (·.chan)).nodup_iff, List.map_cons, List.nodup_cons]
    refine ⟨fun hm => ?_, h.2⟩
    obtain ⟨x, hx, e⟩ := List.mem_map.1 hm
    exact hc x hx e

theorem inClaimOrder_filter (cs : List Claim) (f : Claim → Bool) (h : inClaimOrder cs) : inClaimOrder (cs.filter f) :=
  ⟨h.1.filter _, h.2.sublist (List.filter_sublist.map _)⟩

theorem vacate_inClaimOrder (a : Arbiter) (ch : Fin 25) (h : inClaimOrder a.claims) :
    inClaimOrder (a.vacate ch).claims :=
  inClaimOrder_filter _ _ h

theorem reprice_inClaimOrder (a : Arbiter) (ch : Fin 25) (amount : Nat) (h : inClaimOrder a.claims) :
    inClaimOrder (a.reprice ch amount).claims := by
  have hk : ∀ c : Claim, Claim.key (if c.chan = ch then { c with amount := amount } else c) = c.key := by
    intro c; split <;> rfl
  have hc : ∀ c : Claim, (if c.chan = ch then { c with amount := amount } else c).chan = c.chan := by
    intro c; split <;> rfl
  refine ⟨?_, ?_⟩
  · refine List.pairwise_map.2 (h.1.imp fun {a b} hab => ?_)
    rw [hk, hk]; exact hab
  · show ((a.claims.map _).map _).Nodup
    rw [List.map_map]
    have : ((fun c : Claim => c.chan) ∘ fun c : Claim => if c.chan = ch then { c with amount := amount } else c)
        = (·.chan) := funext hc
    rw [this]; exact h.2

/-! ### Updates of the arbiter -/

/-- An update of the arbiter that keeps the laws of the budget and of the claim queue. -/
theorem Reaction.setArbiter (s : Part) (a : Arbiter) (h : s.budgetOk → a.committed ≤ a.limit ∧ a.ordered)
    (hc : s.claimsOk → inClaimOrder a.claims) : Reaction s (s.setArbiter a) :=
  ⟨rfl, fun _ _ _ h => h, fun _ h => h, fun _ => ⟨Nat.le_refl _, id⟩, hc, h, id, id⟩

theorem Reaction.setClaims (s : Part) (cs : List Claim) (hc : s.claimsOk → inClaimOrder cs) :
    Reaction s (s.setArbiter { s.arbiter with claims := cs }) :=
  .setArbiter s _ id hc

/-- The amount of a waiting claim changed in place (R85). -/
theorem Reaction.reprice (s : Part) (ch : Fin 25) (amount : Nat) :
    Reaction s (s.setArbiter (s.arbiter.reprice ch amount)) :=
  .setClaims s _ (reprice_inClaimOrder _ ch amount)

/-- The claim of a channel withdrawn (R87). -/
theorem Reaction.unclaim (s : Part) (ch : Fin 25) : Reaction s (s.setArbiter (s.arbiter.unclaim ch)) :=
  .setClaims s _ (inClaimOrder_filter _ _)

theorem Reaction.vacate (s : Part) (ch : Fin 25) : Reaction s (s.setArbiter (s.arbiter.vacate ch)) :=
  .setArbiter s _ (fun h => ⟨Nat.le_trans (vacate_committed_le _ ch) h.1, vacate_ordered _ ch h.2⟩)
    (vacate_inClaimOrder _ ch)

theorem Reaction.lower (s : Part) (a : Arbiter) (ch : Fin 25) (keep : Nat)
    (h : a = s.arbiter ∨ a = s.arbiter.unclaim ch) : Reaction s (s.setArbiter (a.lower ch keep)) := by
  refine .setArbiter s _ (fun hb => ⟨Nat.le_trans (lower_committed_le _ ch keep) ?_, lower_ordered _ ch keep ?_⟩) ?_
  · rcases h with rfl | rfl <;> exact hb.1
  · rcases h with rfl | rfl <;> exact hb.2
  · rcases h with rfl | rfl
    · exact id
    · exact inClaimOrder_filter _ _

theorem Reaction.giveGrant (ch : Fin 25) (amount : Nat) (s : Part) (h : s.arbiter.fits amount = true) :
    Reaction s (giveGrant ch amount s) := by
  refine Reaction.trans (.setArbiter s _ (fun hb => ⟨?_, give_ordered _ ch amount hb.2⟩) id) (.handGrant ch _)
  rw [give_committed]
  exact of_decide_eq_true h

theorem Reaction.grantHeads (n : Nat) (s : Part) : Reaction s (grantHeads n s) := by
  induction n generalizing s with
  | zero => exact .refl s
  | succ n ih =>
    unfold Machine.grantHeads
    split
    · exact .refl s
    · rename_i c cs e
      split
      · rename_i h
        have hc : s.claimsOk → inClaimOrder cs := fun hc => by
          unfold Part.claimsOk at hc
          rw [e] at hc
          exact ⟨hc.1.of_cons, (List.nodup_cons.1 hc.2).2⟩
        exact ((Reaction.setClaims s cs hc).trans (.giveGrant c.chan c.amount _ h)).trans (ih _)
      · exact .refl s

/-- A granting pass (R88). -/
theorem Reaction.grantPass (s : Part) : Reaction s (grantPass s) := .grantHeads _ s

/-- The pass that ends releases and withdrawals (R87). -/
theorem Reaction.passAfter {s t : Part} (old : Part) (h : Reaction s t) : Reaction s (passAfter old t) := by
  unfold Machine.passAfter
  exact .ite h (h.trans (.grantPass t))

/-- A claim (R85). -/
theorem Reaction.makeClaim (ch : Fin 25) (amount : Nat) (s : Part) : Reaction s (makeClaim ch amount s) := by
  unfold Machine.makeClaim
  split
  · exact (Reaction.reprice s ch amount).trans (.grantPass _)
  · rename_i hw
    split
    · rename_i h
      exact .giveGrant ch amount s h.2
    · refine (Reaction.setClaims s _ fun hc => insertClaim_inClaimOrder _ _ hc fun x hx e => hw ?_).trans (.grantPass _)
      exact List.any_eq_true.2 ⟨x, hx, by simpa using e⟩

/-! ### Sheds -/

theorem settleLights_arbiter (s : Part) : (settleLights s).arbiter = s.arbiter := by
  have hq : ∀ (e : OwnEntry) (s : Part) (p : Port), (queueOwn e s p).arbiter = s.arbiter := by
    intro e s p; unfold queueOwn; split <;> rfl
  have ho : ∀ (ps : List Port) (e : OwnEntry) (s : Part), (ps.foldl (queueOwn e) s).arbiter = s.arbiter := by
    intro ps e
    induction ps with
    | nil => intro s; rfl
    | cons p ps ih => intro s; exact (ih _).trans (hq e s p)
  have hc : ∀ (s : Part) (n : Nat), (commandNode s n).arbiter = s.arbiter := by
    intro s n
    unfold commandNode
    split
    · rfl
    · split
      · rfl
      · exact ho _ _ _
  have hf : ∀ (ns : List Nat) (s : Part), (ns.foldl commandNode s).arbiter = s.arbiter := by
    intro ns
    induction ns with
    | nil => intro s; rfl
    | cons n ns ih => intro s; exact (ih _).trans (hc s n)
  have h1 : (flashStart s).arbiter = s.arbiter := by unfold flashStart; split <;> rfl
  exact (hf _ _).trans h1

theorem handShed_arbiter (ch : Fin 25) (s : Part) : (handShed ch s).arbiter = s.arbiter := by
  unfold handShed
  split
  · exact settleLights_arbiter _
  · exact settleLights_arbiter _
  · rfl
  · unfold gaugeShed; split <;> rfl

/-- A shed takes the whole grant of its channel and that channel's place in the order (R92). -/
theorem shedOne_arbiter (ch : Fin 25) (s : Part) :
    ∃ cs, (shedOne ch s).arbiter = { s.arbiter.vacate ch with claims := cs } :=
  ⟨_, handShed_arbiter ch _⟩

theorem Reaction.shedOne (ch : Fin 25) (s : Part) : Reaction s (shedOne ch s) := by
  refine Reaction.trans (.setArbiter s _ (fun h => ?_) fun h => ?_) (.handShed ch _)
  · exact ⟨Nat.le_trans (vacate_committed_le _ ch) h.1, vacate_ordered _ ch h.2⟩
  · have hv := vacate_inClaimOrder s.arbiter ch h
    show inClaimOrder (if _ then _ else _)
    split
    · refine insertClaim_inClaimOrder _ _ hv fun x hx => ?_
      have := (List.mem_filter.1 (show x ∈ s.arbiter.claims.filter fun c => c.chan != ch from hx)).2
      simpa using this
    · exact hv

theorem Reaction.shedSome (n : Nat) (s : Part) : Reaction s (shedSome n s) := by
  induction n generalizing s with
  | zero => exact .refl s
  | succ n ih =>
    unfold Machine.shedSome
    split
    · exact .refl s
    · split
      · exact .refl s
      · exact (Reaction.shedOne _ s).trans (ih _)

theorem latestOf_mem (s : Part) (c : Class) (ch : Fin 25) (h : s.latestOf c = some ch) : ch ∈ s.arbiter.order :=
  (List.mem_filter.1 (List.mem_of_getLast? h)).1

theorem latestOf_none (s : Part) (c : Class) (h : s.latestOf c = none) (ch : Fin 25) (hm : ch ∈ s.arbiter.order) :
    s.classOf ch ≠ c := by
  intro e
  have : ch ∈ s.arbiter.order.filter fun k => s.classOf k == c := List.mem_filter.2 ⟨hm, by simp [e]⟩
  rw [Part.latestOf, List.getLast?_eq_none_iff] at h
  rw [h] at this
  cases this

/-- The victim is a holder of a place in the order (R91). -/
theorem victim_mem (s : Part) (ch : Fin 25) (h : s.victim = some ch) : ch ∈ s.arbiter.order := by
  unfold Part.victim at h
  cases h1 : s.latestOf .comfort with
  | some k => rw [h1] at h; cases h; exact latestOf_mem s _ _ h1
  | none =>
    rw [h1] at h
    cases h2 : s.latestOf .gauge with
    | some k => rw [h2] at h; cases h; exact latestOf_mem s _ _ h2
    | none => rw [h2] at h; exact latestOf_mem s _ _ h

/-- There is no victim only when the order is empty (R91). -/
theorem victim_none (s : Part) (h : s.victim = none) : s.arbiter.order = [] := by
  unfold Part.victim at h
  cases h1 : s.latestOf .comfort with
  | some k => rw [h1] at h; cases h
  | none =>
    rw [h1] at h
    cases h2 : s.latestOf .gauge with
    | some k => rw [h2] at h; cases h
    | none =>
      rw [h2] at h
      rw [List.eq_nil_iff_forall_not_mem]
      intro ch hm
      cases e : s.classOf ch with
      | comfort => exact latestOf_none s _ h1 ch hm e
      | gauge => exact latestOf_none s _ h2 ch hm e
      | safety => exact latestOf_none s _ h ch hm e

theorem vacate_order_lt (a : Arbiter) (ch : Fin 25) (h : ch ∈ a.order) : (a.vacate ch).order.length < a.order.length := by
  simp only [Arbiter.vacate, Arbiter.lower, Nat.zero_min, if_true]
  show (a.order.filter (· != ch)).length < a.order.length
  exact List.length_filter_lt_length_iff_exists.2 ⟨ch, h, by simp⟩

/-- Sheds, one for each place in the order at most, bring the committed total to the limit in force or below, and
keep the limit and the order (R91). -/
theorem shedSome_budget (n : Nat) (s : Part) (hn : s.arbiter.order.length ≤ n) (ho : s.arbiter.ordered) :
    (shedSome n s).budgetOk ∧ (shedSome n s).arbiter.limit = s.arbiter.limit := by
  have base : s.arbiter.order = [] → s.budgetOk := by
    intro he
    have hz : ∀ ch, s.arbiter.grants.get ch = 0 := by
      intro ch
      rcases Nat.eq_zero_or_pos (s.arbiter.grants.get ch) with h | h
      · exact h
      · have := ho ch h; rw [he] at this; cases this
    refine ⟨?_, ho⟩
    show s.arbiter.committed ≤ _
    rw [committed_zero _ hz]
    exact Nat.zero_le _
  induction n generalizing s with
  | zero => exact ⟨base (List.eq_nil_of_length_eq_zero (Nat.le_zero.1 hn)), rfl⟩
  | succ n ih =>
    unfold shedSome
    split
    · rename_i h; exact ⟨⟨h, ho⟩, rfl⟩
    · split
      · rename_i h; exact ⟨base (victim_none s h), rfl⟩
      · rename_i ch hv
        obtain ⟨cs, hcs⟩ := shedOne_arbiter ch s
        have hlt := vacate_order_lt s.arbiter ch (victim_mem s ch hv)
        have hord : (shedOne ch s).arbiter.ordered := by
          rw [hcs]; exact vacate_ordered s.arbiter ch ho
        have hlen : (shedOne ch s).arbiter.order.length ≤ n := by
          rw [hcs]; show (s.arbiter.vacate ch).order.length ≤ n; omega
        have hb : (shedOne ch s).arbiter.order = [] → (shedOne ch s).budgetOk := by
          intro he
          have hz : ∀ c, (shedOne ch s).arbiter.grants.get c = 0 := by
            intro c
            rcases Nat.eq_zero_or_pos ((shedOne ch s).arbiter.grants.get c) with h | h
            · exact h
            · have := hord c h; rw [he] at this; cases this
          refine ⟨?_, hord⟩
          show (shedOne ch s).arbiter.committed ≤ _
          rw [committed_zero _ hz]
          exact Nat.zero_le _
        have := ih (shedOne ch s) hlen hord hb
        exact ⟨this.1, this.2.trans (by rw [hcs]; rfl)⟩

/-- A limit handed to the arbiter (R89). -/
theorem Reaction.setLimit (new : Nat) (s : Part) : Reaction s (setLimit new s) := by
  unfold Machine.setLimit
  refine .ite (.refl s) (Reaction.trans ?_ (.syncConds _))
  have hl : s.budgetOk → (s.setArbiter { s.arbiter with limit := new }).arbiter.ordered := fun h => h.2
  split
  · rename_i h
    refine Reaction.trans (.setArbiter s { s.arbiter with limit := new } (fun hb => ⟨?_, hb.2⟩) id) (.grantPass _)
    exact Nat.le_trans hb.1 (Nat.le_of_lt h)
  · have r := Reaction.shedSome s.arbiter.order.length (s.setArbiter { s.arbiter with limit := new })
    exact ⟨r.still, r.replies, r.held, r.ownQ, r.claims, fun hb => (shedSome_budget _ _ (Nat.le_refl _) (hl hb)).1, r.gauges,
      r.reference⟩

end Sys2Proof.Machine
end

