-- ==== Sys2Proof/Laws/Outputs.lean ====
section
/-! SUPPORT. The operations of the channel manager, lamp logic, the fan, the gauges and the power manager are
reactions; followed by what ends every event, and what follows a change of the link. -/

namespace Sys2Proof.Machine

/-! ### Channel manager -/

theorem Reaction.startRefresh (ch : Fin 25) (s : Part) : Reaction s (startRefresh ch s) :=
  .ite (.onLampNode s _ _) (.refl s)

theorem Reaction.claimChan (ch : Fin 25) (s : Part) : Reaction s (claimChan ch s) := by
  have h (c : Chan) := (Reaction.setChan s ch c).trans (.startRefresh ch _)
  exact .ite (((h _).trans (.noteFault _ _)).trans (.settleLights _)) ((h _).trans (.makeClaim _ _ _))

theorem Reaction.turnOff (ch : Fin 25) (s : Part) : Reaction s (turnOff ch s) :=
  .passAfter s (((Reaction.setChan s ch Chan.off).trans (.vacate _ ch)).trans (.settleLights _))

/-- A change of demand (R63). -/
theorem Reaction.setDemand (ch : Fin 25) (d : Demand) (s : Part) : Reaction s (setDemand ch d s) := by
  unfold Machine.setDemand
  refine .ite (.refl s) (.ite (.turnOff ch s) ?_)
  have h1 := Reaction.setChan s ch { s.chan ch with demand := d }
  refine .ite (.ite h1 (h1.trans (.claimChan ch _))) ?_
  exact .ite ((h1.trans (.settleLights _)).trans (.noteFault ch _)) (h1.trans (.settleLights _))

theorem Reaction.setBulbOut (ch : Fin 25) (out : Bool) (s : Part) : Reaction s (setBulbOut ch out s) := by
  unfold Machine.setBulbOut
  have h1 := Reaction.setChan s ch { s.chan ch with bulbOut := out }
  exact (Reaction.ite (h1.trans (.noteFault ch _)) h1).trans (.syncConds _)

theorem Reaction.sampleLamp (ch : Fin 25) (current : Nat) (s : Part) : Reaction s (sampleLamp ch current s) :=
  (Reaction.setChan s ch _).trans (.setBulbOut ch _ _)

/-- A channel that goes to FAULT (R69, R71). -/
theorem Reaction.faultChan (ch : Fin 25) (k : FaultKind) (l : Bool) (r : Option Nat) (s : Part) :
    Reaction s (faultChan ch k l r s) :=
  .passAfter s (((Reaction.setChan s ch _).trans (.vacate _ ch)).trans (.settleLights _))

theorem Reaction.overloadChan (ch : Fin 25) (s : Part) : Reaction s (overloadChan ch s) :=
  .ite (.faultChan ..) (.faultChan ..)

theorem Reaction.shortChan (ch : Fin 25) (s : Part) : Reaction s (shortChan ch s) := .faultChan ..

theorem Reaction.retryChan (ch : Fin 25) (s : Part) : Reaction s (retryChan ch s) :=
  (Reaction.setChan s ch _).trans (.claimChan ch _)

theorem Reaction.loseChan (s : Part) (ch : Fin 25) : Reaction s (loseChan s ch) := by
  unfold Machine.loseChan
  split
  all_goals first
    | exact .refl s
    | exact ((Reaction.setChan s ch _).trans (.vacate _ ch)).trans (.noteFault ch _)

theorem Reaction.loseNode (s : Part) (n : Nat) : Reaction s (loseNode s n) :=
  ((Reaction.onLampNode s n _).trans (.foldl (fun s ch => .loseChan s ch) _ _)).trans (.settleLights _)

theorem Reaction.regainChan (s : Part) (ch : Fin 25) : Reaction s (regainChan s ch) :=
  .ite (.claimChan ch s) (.refl s)

theorem Reaction.regainNode (s : Part) (n : Nat) : Reaction s (regainNode s n) :=
  ((Reaction.onLampNode s n _).trans (.commandNode _ n)).trans (.foldl (fun s ch => .regainChan s ch) _ _)

/-- The reachability of the lamp nodes computed again (R73). -/
theorem Reaction.followNodes (s : Part) : Reaction s (followNodes s) :=
  (Reaction.passAfter s (.foldl (fun s n => .loseNode s n) _ s)).trans (.foldl (fun s n => .regainNode s n) _ _)

theorem Reaction.rebuildRecords (s : Part) : Reaction s (rebuildRecords s) := .setLampNodes s _

theorem Reaction.forceOff (s : Part) : Reaction s (forceOff s) := .setChannels s _

/-! ### Lamp logic -/

theorem Reaction.handResults (s : Part) : Reaction s (handResults s) := by
  unfold Machine.handResults Machine.flasherRest
  refine .ite ?_ (.refl s)
  have h := Reaction.foldl (f := handDemand) (fun s ch => .setDemand ch _ s) s.changedChans s
  exact .ite h (h.trans ((Reaction.setFlasher _ _).trans (.setChannels _ _)))

/-- An evaluation, up to the power manager's reaction to it (R103 to R106). -/
theorem Reaction.evaluateRules (s : Part) : Reaction s (evaluateRules s) := by
  unfold Machine.evaluateRules
  exact .ite (.refl s) (((Reaction.setLamps s _).trans (.handResults _)).trans (.setLamps _ _))

theorem Reaction.lampsHeld (s : Part) : Reaction s (lampsHeld s) := .setLamps s _

/-! ### Fan -/

theorem Reaction.fanStep (s : Part) : Reaction s (fanStep s) := by
  unfold Machine.fanStep
  split
  · exact .setFan s _
  · exact (Reaction.setFan s _).trans (.makeClaim _ _ _)

theorem Reaction.stopFan (s : Part) : Reaction s (stopFan s) :=
  .passAfter s ((Reaction.vacate s fanChan).trans (.fanStopped _))

theorem Reaction.cutFan (target : Nat) (s : Part) : Reaction s (cutFan target s) :=
  .passAfter s ((Reaction.lower s _ fanChan _ (.inr rfl)).trans (.setFan _ _))

theorem Reaction.raiseFan (target : Nat) (s : Part) : Reaction s (raiseFan target s) := by
  unfold Machine.raiseFan
  dsimp only
  have h1 := (Reaction.lower s s.arbiter fanChan (need s.tables.fan.nominal target) (.inl rfl)).trans
    (.setFan _ { s.fan with target := target })
  split
  · split
    · exact (h1.trans ((Reaction.reprice _ _ _).trans (.setFan _ _))).trans (.grantPass _)
    · exact .passAfter s (h1.trans ((Reaction.unclaim _ _).trans (.setFan _ _)))
  · exact .passAfter s h1

theorem Reaction.reclaimFan (target : Nat) (s : Part) : Reaction s (reclaimFan target s) :=
  (Reaction.setFan s _).trans (.makeClaim _ _ _)

/-- A new target (R124). -/
theorem Reaction.setTarget (target : Nat) (s : Part) : Reaction s (setTarget target s) := by
  unfold Machine.setTarget
  refine .ite (.refl s) ?_
  split
  · exact (Reaction.setFan s _).trans (.fanStep _)
  · exact .ite (.stopFan s) (.reclaimFan _ s)
  · exact .ite (.stopFan s) (.ite (.cutFan _ s) (.raiseFan _ s))
  · exact .ite (.stopFan s) (.ite (.cutFan _ s) ((Reaction.setFan s _).trans (.fanStep _)))
  · exact .ite (.stopFan s) (.setFan s _)
  · exact .setFan s _

/-- The selection of the target (R120). -/
theorem Reaction.selectFan (s : Part) : Reaction s (selectFan s) :=
  .ite (.refl s) (.ite (.fanStopped s) (.setTarget _ s))

theorem Reaction.stallFan (s : Part) : Reaction s (stallFan s) :=
  .passAfter s ((Reaction.vacate s fanChan).trans (.setFan _ _))

theorem Reaction.sampleFan (current : Nat) (s : Part) : Reaction s (sampleFan current s) := by
  unfold Machine.sampleFan
  have h1 : Reaction s (measureFan current s) := .setChan s _ _
  exact .ite (.ite (.ite (h1.trans (.stallFan _)) (h1.trans (.setFan _ _))) (h1.trans (.setFan _ _))) h1

theorem Reaction.overloadFan (s : Part) : Reaction s (overloadFan s) :=
  .passAfter s ((Reaction.vacate s fanChan).trans (.setFan _ _))

theorem Reaction.endStallWait (s : Part) : Reaction s (endStallWait s) :=
  .ite ((Reaction.setFan s _).trans (.fanStep _)) (.setFan s _)

/-! ### Gauges -/

theorem Reaction.startTest (s : Part) (g : Fin 4) : Reaction s (startTest s g) :=
  .ite ((Reaction.setGauge_undriven s g _ rfl).trans (.makeClaim _ _ _)) (.refl s)

theorem Reaction.startTests (s : Part) : Reaction s (startTests s) := .foldl (fun s g => .startTest s g) _ s

theorem Reaction.markLost (g : Fin 4) (b : Bool) (s : Part) : Reaction s (markLost g b s) :=
  .setGauge s g _ fun _ h => h

theorem Reaction.parkNow (g : Fin 4) (s : Part) : Reaction s (parkNow g s) :=
  (Reaction.undrive g .parked s rfl).trans (.vacate _ _)

/-- A driven gauge stays so, or not, in any other state. -/
theorem Reaction.redrive (s : Part) (g : Fin 4) (r : Gauge) (h : (s.gauge g).state.driven = true) :
    Reaction s (s.setGauge g r) :=
  .setGauge s g r fun _ _ => h

theorem Reaction.loseSender (s : Part) (g : Fin 4) : Reaction s (loseSender s g) := by
  unfold Machine.loseSender
  dsimp only
  split
  iterate 2
    rename_i h
    split
    · exact .redrive s g _ (by rw [h]; rfl)
    · split
      · exact .redrive s g _ (by rw [h]; rfl)
      · exact (Reaction.parkNow g s).trans (.markLost g true _)
  · exact (Reaction.parkNow g s).trans (.markLost g true _)
  · exact .markLost g true s
  all_goals exact .refl s

theorem Reaction.regainSender (s : Part) (g : Fin 4) : Reaction s (regainSender s g) := by
  unfold Machine.regainSender
  dsimp only
  split
  · rename_i h; exact .redrive s g _ (by rw [h]; rfl)
  · rename_i h
    exact .ite (.redrive s g _ (by rw [h]; rfl)) (.refl s)
  · exact (Reaction.markLost g false s).trans (.startTest _ g)
  all_goals exact .refl s

/-- The gauges follow their senders (R144). -/
theorem Reaction.followSenders (s : Part) : Reaction s (followSenders s) :=
  (Reaction.passAfter s (.foldl (fun s g => .loseSender s g) _ s)).trans (.foldl (fun s g => .regainSender s g) _ _)

theorem Reaction.parkForIgnition (s : Part) (g : Fin 4) : Reaction s (parkForIgnition s g) := by
  unfold Machine.parkForIgnition
  dsimp only
  refine Reaction.trans ?_ (.markLost g false _)
  split
  iterate 3
    rename_i h
    split
    · exact .redrive s g _ (by rw [h]; rfl)
    · exact .parkNow g s
  · split
    · exact .refl s
    · exact .parkNow g s
  · exact .parkNow g s
  · exact .refl s

theorem Reaction.resumeGauge (s : Part) (g : Fin 4) : Reaction s (resumeGauge s g) := by
  unfold Machine.resumeGauge
  dsimp only
  split
  · rename_i h
    refine .ite (.redrive s g _ (by rw [h]; rfl)) ?_
    split
    · exact .redrive s g _ (by rw [h]; rfl)
    · exact .markLost g true s
  · exact .startTest s g
  all_goals exact .refl s

/-- A change of mode at the gauge unit (R145). -/
theorem Reaction.gaugesFollowMode (s : Part) : Reaction s (gaugesFollowMode s) :=
  .ite (.foldl (fun s g => .resumeGauge s g) _ s) (.passAfter s (.foldl (fun s g => .parkForIgnition s g) _ s))

theorem Reaction.gaugesSettled (s : Part) : Reaction s (gaugesSettled s) :=
  .foldl (fun s g => .leaveSettling g s) _ s

/-- All gauges replaced by undriven ones. -/
theorem Reaction.setGauges (s : Part) (v : Vector Gauge 4) (h : ∀ g, (v.get g).state.driven = false) :
    Reaction s { s with gauges := v } :=
  ⟨rfl, fun _ _ _ h => h, fun _ h => h, fun _ => ⟨Nat.le_refl _, id⟩, id, id, fun hg => ⟨hg.1, fun _ g => h g⟩, id⟩

theorem Reaction.gaugesHeld (s : Part) : Reaction s (gaugesHeld s) :=
  .setGauges s _ fun g => by rw [tab_get]; rfl

theorem Reaction.gaugesFresh (s : Part) : Reaction s (gaugesFresh s) :=
  .setGauges s _ fun g => by rw [tab_get]; rfl

theorem Reaction.endRamp (s : Part) (g : Fin 4) : Reaction s (endRamp s g) := by
  unfold Machine.endRamp
  exact .ite ((Reaction.passAfter s (Reaction.parkNow g s)).trans (.startTest _ g)) (.refl s)

/-! ### Power manager -/

/-- The limit in force selected again (R82). -/
theorem Reaction.selectLimit (s : Part) : Reaction s (selectLimit s) := .setLimit _ s

theorem Reaction.handBlocks (was : Mode) (s : Part) : Reaction s (handBlocks was s) := by
  have h := (Reaction.evaluateRules s).trans (.selectFan _)
  exact .ite (h.trans (.startTests _)) (h.trans (.gaugesFollowMode _))

/-- A mode or an ignition state handed to the blocks (R151, R155). -/
theorem Reaction.handMode (was : Mode) (s : Part) : Reaction s (handMode was s) :=
  .ite ((Reaction.selectLimit s).trans (.handBlocks was _))
    (((Reaction.handBlocks was s).trans (.syncConds _)).trans (.selectLimit _))

theorem Reaction.lightTxs (s : Part) : Reaction s (lightTxs s) := by
  have h : ∀ r : PortRec, r.lightTx.lightTx = r.lightTx := by
    intro r
    unfold PortRec.lightTx
    by_cases e : r.tx = .dark
    · rw [if_pos e]; rfl
    · rw [if_neg e, if_neg e]
  refine ⟨?_, fun _ _ _ h => h, fun _ h => h, fun _ => ⟨Nat.le_refl _, id⟩, id, id, id, id⟩
  simp only [Undisturbed, Part.still, Machine.lightTxs, h]

/-- Another mode, with the reference as the mode has it and the settled flag no more set than before. -/
theorem Reaction.setMode (s : Part) (p : Power) (hs : { s.power with
      mode := p.mode, interval := p.interval, settled := p.settled, reference := p.reference, deferral := p.deferral,
      quiet := p.quiet } = p)
    (hg : p.settled = true ∧ s.power.settled = true ∨ p.settled = false ∧ ∀ g, (s.gauge g).state.driven = false
      ∨ s.power.settled = false)
    (hr : p.reference = p.mode.referenceOn) : Reaction s (s.setPower p) := by
  refine ⟨?_, fun _ _ _ h => h, fun _ h => h, fun _ => ⟨Nat.le_refl _, id⟩, id, id, ?_, fun _ _ => hr⟩
  · rw [← hs]; rfl
  · intro ⟨h1, h2⟩
    have hon : (s.setPower p).on = s.on := by rw [← hs]; rfl
    refine ⟨fun h => ?_, fun h g => ?_⟩
    · rw [hon] at h
      rcases hg with ⟨_, hg⟩ | ⟨hg, _⟩
      · rw [h1 h] at hg; exact absurd hg (by decide)
      · exact hg
    · rcases hg with ⟨hg, _⟩ | ⟨_, hg⟩
      · have : p.settled = false := h
        rw [this] at hg; exact absurd hg (by decide)
      · rcases hg g with h' | h'
        · exact h'
        · exact h2 h' g

theorem Reaction.wakeTo (mode : Mode) (s : Part) (h : mode.referenceOn = true) : Reaction s (wakeTo mode s) := by
  refine Reaction.trans ?_ ((Reaction.lightTxs _).trans (.handMode _ _))
  refine .setMode s _ rfl ?_ h.symm
  cases hs : s.power.settled
  · exact .inr ⟨rfl, fun _ => .inr rfl⟩
  · exact .inl ⟨rfl, rfl⟩

theorem Reaction.cancelDeferral (s : Part) : Reaction s (cancelDeferral s) :=
  .ite ((Reaction.setPower s s.power.interval false s.power.quiet).trans (.answerSleep _ _)) (.refl s)

theorem Reaction.demandRise (s : Part) : Reaction s (demandRise s) := by
  unfold Machine.demandRise
  split
  · exact .cancelDeferral s
  · exact .wakeTo _ s rfl
  all_goals exact .refl s

/-- An evaluation (R103, R106). -/
theorem Reaction.evaluate (s : Part) : Reaction s (evaluate s) :=
  .ite ((Reaction.evaluateRules s).trans (.demandRise _)) (.evaluateRules s)

theorem allParked_undriven (s : Part) (h : s.allParked = true) (g : Fin 4) : (s.gauge g).state.driven = false := by
  have := List.all_eq_true.1 h g (List.mem_finRange g)
  have e : (s.gauge g).state = .parked := by simpa using this
  rw [e]; rfl

/-- DORMANT entry, once every gauge is PARKED (R159). -/
theorem Reaction.enterDormant (s : Part) (h : s.allParked = true) : Reaction s (enterDormant s) := by
  refine Reaction.trans ?_ (((Reaction.forceOff _).trans (.handMode _ _)).trans (.answerSleep _ _))
  exact .setMode s _ rfl (.inr ⟨rfl, fun g => .inl (allParked_undriven s h g)⟩) rfl

theorem mayEnterDormant_allParked (s : Part) (h : s.mayEnterDormant = true) : s.allParked = true := by
  simp only [Part.mayEnterDormant, Bool.and_eq_true] at h
  exact h.1.1.1.2

theorem Reaction.testDeferral (s : Part) : Reaction s (testDeferral s) := by
  unfold Machine.testDeferral
  split
  · rename_i h; exact .enterDormant s (mayEnterDormant_allParked s h.2.2)
  · exact .refl s

theorem Reaction.followQuiet (s : Part) : Reaction s (followQuiet s) := .setPower s _ _ _

theorem Reaction.followIdle (s : Part) : Reaction s (followIdle s) := .setPower s _ _ _

theorem Reaction.restartIdle (s : Part) : Reaction s (restartIdle s) := by
  unfold Machine.restartIdle
  split
  · exact .setPower s _ _ _
  all_goals exact .refl s

/-- What ends every event. -/
theorem Reaction.finish (s : Part) : Reaction s (finish s) :=
  (((Reaction.syncConds s).trans (.testDeferral _)).trans (.followQuiet _)).trans (.followIdle _)

/-- A change notice delivered (R56). -/
theorem Reaction.deliverNotice (old s : Part) : Reaction s (deliverNotice old s) := by
  unfold Machine.deliverNotice
  refine .ite ?_ (.refl s)
  have h1 := Reaction.evaluate s
  split <;> split
  · exact (h1.trans (.selectFan _)).trans (.restartIdle _)
  · exact h1.trans (.selectFan _)
  · exact h1.trans (.restartIdle _)
  · exact h1

/-! ### What follows a change of the link -/

/-- NODE_TABLE_FULL apart, nothing is touched by its clearing (R29). -/
theorem followLink_reaction (s : Part) :
    ∃ t, Reaction (followFreshness s) t ∧ followLink s = followRoom t :=
  ⟨_, ((Reaction.deliverNotice s _).trans (.followNodes _)).trans (.followSenders _), rfl⟩

end Sys2Proof.Machine
end

