-- ==== Sys2Proof/Laws/Finish.lean ====
section
/-! SUPPORT. What an undisturbed part keeps, field by field; what the condition set and the end of an event leave
alone. -/

namespace Sys2Proof.Machine

/-! ### Fields an undisturbed part keeps -/

namespace Undisturbed

variable {s t : Part} (h : Undisturbed s t)
include h

theorem relay : t.relay.nodes = s.relay.nodes ∧ t.relay.ownTimer = s.relay.ownTimer ∧
    t.relay.rxQueue = s.relay.rxQueue ∧ t.relay.lossPending = s.relay.lossPending ∧
    t.relay.lastTaken = s.relay.lastTaken ∧ t.relay.relayQueue = s.relay.relayQueue :=
  ⟨congrArg (·.relay.nodes) h, congrArg (·.relay.ownTimer) h, congrArg (·.relay.rxQueue) h,
   congrArg (·.relay.lossPending) h, congrArg (·.relay.lastTaken) h, congrArg (·.relay.relayQueue) h⟩

theorem inputs : t.inputs = s.inputs := congrArg (·.inputs) h

theorem mgmt : t.mgmt.slot = s.mgmt.slot ∧ t.mgmt.windowTable = s.mgmt.windowTable ∧
    t.mgmt.windowIndex = s.mgmt.windowIndex ∧ t.mgmt.commit = s.mgmt.commit ∧ t.mgmt.dropped = s.mgmt.dropped ∧
    t.mgmt.node = s.mgmt.node ∧ t.mgmt.tables = s.mgmt.tables ∧ t.mgmt.store = s.mgmt.store :=
  ⟨congrArg (·.mgmt.slot) h, congrArg (·.mgmt.windowTable) h, congrArg (·.mgmt.windowIndex) h,
   congrArg (·.mgmt.commit) h, congrArg (·.mgmt.dropped) h, congrArg (·.mgmt.node) h, congrArg (·.mgmt.tables) h,
   congrArg (·.mgmt.store) h⟩

theorem power : t.power.stage = s.power.stage ∧ t.power.acc = s.power.acc ∧ t.power.run = s.power.run ∧
    t.power.start = s.power.start ∧ t.power.samples = s.power.samples ∧ t.power.charging = s.power.charging :=
  ⟨congrArg (·.power.stage) h, congrArg (·.power.acc) h, congrArg (·.power.run) h, congrArg (·.power.start) h,
   congrArg (·.power.samples) h, congrArg (·.power.charging) h⟩

theorem pins : t.nodeStraps = s.nodeStraps ∧ t.cutStrap = s.cutStrap ∧ t.limitFirst = s.limitFirst :=
  ⟨congrArg (·.nodeStraps) h, congrArg (·.cutStrap) h, congrArg (·.limitFirst) h⟩

theorem tables : t.tables = s.tables := h.mgmt.2.2.2.2.2.2.1

theorem on : t.on = s.on := by
  show (t.power.stage == .running) = _
  rw [h.power.1]; rfl

theorem supply : t.supply = s.supply := by
  show filtered _ = _
  rw [h.power.2.2.2.2.1]; rfl

theorem ignition : t.ignition = s.ignition := by
  show ignitionOf t.power.acc.level t.power.run.level t.power.start.level = _
  rw [h.power.2.1, h.power.2.2.1, h.power.2.2.2.1]; rfl

theorem port (p : Port) : (t.port p).lightTx = (s.port p).lightTx := by
  cases p
  · exact congrArg (·.ports.front) h
  · exact congrArg (·.ports.rear) h

/-- All of a port but its transmitter. -/
theorem portRest (p : Port) :
    (t.port p).state = (s.port p).state ∧ (t.port p).mode = (s.port p).mode ∧ (t.port p).lock = (s.port p).lock ∧
    (t.port p).heldLock = (s.port p).heldLock ∧ (t.port p).good = (s.port p).good ∧
    (t.port p).bad = (s.port p).bad ∧ (t.port p).alt = (s.port p).alt ∧ (t.port p).reframe = (s.port p).reframe ∧
    (t.port p).quiet = (s.port p).quiet ∧ (t.port p).rx = (s.port p).rx ∧
    (t.port p).counters = (s.port p).counters ∧ (t.port p).lastSent = (s.port p).lastSent := by
  have e : ∀ r : PortRec, { r.lightTx with tx := r.tx } = r := by
    intro r
    unfold PortRec.lightTx
    split <;> rfl
  have k : { (t.port p).lightTx with tx := .filling 0 } = { (s.port p).lightTx with tx := .filling 0 } := by
    rw [h.port p]
  rw [← e (t.port p), ← e (s.port p)]
  refine ⟨congrArg (·.state) k, congrArg (·.mode) k, congrArg (·.lock) k, congrArg (·.heldLock) k,
    congrArg (·.good) k, congrArg (·.bad) k, congrArg (·.alt) k, congrArg (·.reframe) k, congrArg (·.quiet) k,
    congrArg (·.rx) k, congrArg (·.counters) k, congrArg (·.lastSent) k⟩

/-- The flags of the conditions no reaction touches. -/
theorem active (c : Cond) (hc : c.followed = false) : t.active c = s.active c := by
  have e : t.mgmt.active &&& ownMask = s.mgmt.active &&& ownMask := congrArg (·.mgmt.active) h
  have hm : ownMask.getLsbD c.num = true := by
    cases c <;> first | rfl | exact absurd hc (by decide)
  have := congrArg (·.getLsbD c.num) e
  simpa [hm, Part.active] using this

theorem rxQ (p : Port) : t.rxQ p = s.rxQ p := by
  show t.relay.rxQueue.get p = _
  rw [h.relay.2.2.1]; rfl

theorem relayQ (p : Port) : t.relayQ p = s.relayQ p := by
  show t.relay.relayQueue.get p = _
  rw [h.relay.2.2.2.2.2]; rfl

theorem node (n : Nat) : t.node n = s.node n := by
  show findNode t.relay.nodes n = _
  rw [h.relay.1]; rfl

theorem isUp (p : Port) : t.isUp p = s.isUp p := by
  show ((t.port p).state == .up) = _
  rw [(h.portRest p).1]; rfl

theorem heard (n : Nat) : t.heard n = s.heard n := by
  unfold Part.heard
  rw [h.node n]
  split
  · congr 1
    split
    · exact h.isUp _
    · rfl
  · rfl

end Undisturbed

/-! ### The condition set leaves outputs and modes alone -/

/-- What flags and notices leave alone besides the undisturbed fields. -/
structure FlagsOnly (s t : Part) : Prop where
  outputs : SameOutputs s t
  power : t.power = s.power
  ports : t.ports = s.ports

theorem FlagsOnly.refl (s : Part) : FlagsOnly s s := ⟨⟨rfl, rfl, rfl, rfl, rfl⟩, rfl, rfl⟩

theorem SameOutputs.trans {s t u : Part} (h : SameOutputs s t) (k : SameOutputs t u) : SameOutputs s u :=
  ⟨k.1.trans h.1, k.2.1.trans h.2.1, k.2.2.1.trans h.2.2.1, k.2.2.2.1.trans h.2.2.2.1, k.2.2.2.2.trans h.2.2.2.2⟩

theorem FlagsOnly.trans {s t u : Part} (h : FlagsOnly s t) (k : FlagsOnly t u) : FlagsOnly s u :=
  ⟨h.outputs.trans k.outputs, k.power.trans h.power, k.ports.trans h.ports⟩

theorem FlagsOnly.ite {s a b : Part} {c : Prop} [Decidable c] (ha : FlagsOnly s a) (hb : FlagsOnly s b) :
    FlagsOnly s (if c then a else b) := by
  split
  · exact ha
  · exact hb

theorem FlagsOnly.queueOwn (e : OwnEntry) (s : Part) (p : Port) : FlagsOnly s (queueOwn e s p) :=
  .ite (.refl s) ⟨⟨rfl, rfl, rfl, rfl, rfl⟩, rfl, rfl⟩

theorem FlagsOnly.originate (n : Nat) (b : OwnBody) (s : Part) : FlagsOnly s (originate n b s) := by
  have : ∀ (ps : List Port) (e : OwnEntry) (s : Part), FlagsOnly s (ps.foldl (Machine.queueOwn e) s) := by
    intro ps e
    induction ps with
    | nil => exact fun s => .refl s
    | cons p ps ih => exact fun s => (FlagsOnly.queueOwn e s p).trans (ih _)
  exact this _ _ s

theorem FlagsOnly.requestNotice (s : Part) : FlagsOnly s (requestNotice s) := .ite (.refl s) (.originate _ _ s)

theorem FlagsOnly.oweNotice (c : Cond) (s : Part) : FlagsOnly s (oweNotice c s) := by
  have h : FlagsOnly s { s with mgmt := { s.mgmt with owed := true } } := ⟨⟨rfl, rfl, rfl, rfl, rfl⟩, rfl, rfl⟩
  exact .ite (h.trans (.requestNotice _)) (.refl s)

/-- A flag raised or cleared (R176). -/
theorem FlagsOnly.setCond (c : Cond) (b : Bool) (s : Part) : FlagsOnly s (setCond c b s) := by
  unfold Machine.setCond
  have h1 : FlagsOnly s (s.markActive c b) := ⟨⟨rfl, rfl, rfl, rfl, rfl⟩, rfl, rfl⟩
  have h2 : FlagsOnly (s.markActive c b) { s.markActive c b with
      mgmt := { (s.markActive c b).mgmt with changed := putBit (s.markActive c b).mgmt.changed c.num true } } :=
    ⟨⟨rfl, rfl, rfl, rfl, rfl⟩, rfl, rfl⟩
  exact .ite (.refl s) (.ite h1 ((h1.trans h2).trans (.oweNotice c _)))

theorem FlagsOnly.syncConds (s : Part) : FlagsOnly s (syncConds s) := by
  have : ∀ (l : List (Cond × Bool)) (s : Part), FlagsOnly s (l.foldl (fun t x => Machine.setCond x.1 x.2 t) s) := by
    intro l
    induction l with
    | nil => exact fun s => .refl s
    | cons x l ih => exact fun s => (FlagsOnly.setCond x.1 x.2 s).trans (ih _)
  exact .ite (this _ s) (.refl s)

theorem SameOutputs.chanState {s t : Part} (h : SameOutputs s t) (ch : Fin 25) : t.chanState ch = s.chanState ch := by
  cases s; cases t
  obtain ⟨h1, h2, h3, h4, h5⟩ := h
  cases h1; cases h2; cases h3; cases h4; cases h5
  rfl

theorem SameOutputs.allOff {s t : Part} (h : SameOutputs s t) : t.allOff = s.allOff := by
  unfold Part.allOff
  rw [funext fun ch => congrArg (· == ChanState.off) (h.chanState ch)]

theorem SameOutputs.allParked {s t : Part} (h : SameOutputs s t) : t.allParked = s.allParked := by
  simp only [Part.allParked, Part.gauge, h.2.2.2.2]

theorem SameOutputs.lit {s t : Part} (h : SameOutputs s t) (ch : Fin 25) : t.lit ch = s.lit ch := by
  cases s; cases t
  obtain ⟨h1, h2, h3, h4, h5⟩ := h
  cases h1; cases h2; cases h3; cases h4; cases h5
  rfl

/-- No DORMANT entry can end the event: no deferral waits, the mode is not STANDING, or an output is in use. -/
def Part.staysAwake (s : Part) : Prop :=
  s.power.deferral = false ∨ s.mode ≠ .standing ∨ s.lamps.flasher.state ≠ .idle ∨ s.allParked = false
    ∨ s.allOff = false ∨ s.mgmt.commit.isSome = true

/-- Where no DORMANT entry ends the event, its end leaves outputs, ports, mode, settled flag, reference and deferral
mark alone. -/
theorem finish_outputs (s : Part) (h : s.staysAwake) :
    SameOutputs s (finish s) ∧ (finish s).ports = s.ports ∧
    (finish s).power = { s.power with interval := (finish s).power.interval, quiet := (finish s).power.quiet } := by
  have f := FlagsOnly.syncConds s
  have r := Reaction.syncConds s
  have hd : testDeferral (syncConds s) = syncConds s := by
    refine if_neg fun ⟨h1, h2, h3⟩ => ?_
    simp only [Part.mayEnterDormant, Bool.and_eq_true] at h3
    obtain ⟨⟨⟨⟨k1, k2⟩, k3⟩, _⟩, k5⟩ := h3
    obtain ⟨o1, o2, o3, o4, o5⟩ := f.outputs
    rw [f.power] at h1
    rcases h with h | h | h | h | h | h
    · rw [h] at h1; exact absurd h1 (by decide)
    · exact h (by rw [← h2]; show s.power.mode = _; rw [← f.power]; rfl)
    · rw [o3] at k1; exact h (by simpa using k1)
    · rw [f.outputs.allParked, h] at k2; exact absurd k2 (by decide)
    · rw [f.outputs.allOff, h] at k3; exact absurd k3 (by decide)
    · rw [r.still.mgmt.2.2.2.1] at k5
      cases hc : s.mgmt.commit <;> simp_all
  have e : finish s = followIdle (followQuiet (syncConds s)) := by
    show followIdle (followQuiet (testDeferral (syncConds s))) = _
    rw [hd]
  rw [e]
  refine ⟨f.outputs, f.ports, ?_⟩
  have hp : (followIdle (followQuiet (syncConds s))).power = { (syncConds s).power with
      interval := (followIdle (followQuiet (syncConds s))).power.interval
      quiet := (followIdle (followQuiet (syncConds s))).power.quiet } := rfl
  refine hp.trans ?_
  rw [f.power]

end Sys2Proof.Machine
end

