-- ==== Sys2Proof/Laws/Events.lean ====
section
/-! SUPPORT. What the ends of events do: flags written, the end of an event in a calm part, the dispatch of an entry,
the answer to a request. One lemma for each. -/

namespace Sys2Proof.Machine

/-! ### Flags -/

theorem Cond.num_lt (c : Cond) : c.num < 16 := by cases c <;> decide

theorem putBit_same (v : BitVec 16) (n : Nat) (b : Bool) (hn : n < 16) (h : v.getLsbD n = b) : putBit v n b = v := by
  apply BitVec.eq_of_getLsbD_eq
  intro i hi
  rw [putBit_getLsbD v n i b hi]
  split
  · rename_i e; subst e; exact h.symm
  · rfl

theorem markActive_same (s : Part) (c : Cond) (b : Bool) (h : s.active c = b) : s.markActive c b = s := by
  unfold Part.markActive
  rw [putBit_same _ _ _ c.num_lt h]

theorem markActive_active (s : Part) (c : Cond) (b : Bool) : (s.markActive c b).active c = b := by
  show (putBit _ _ _).getLsbD _ = _
  rw [putBit_getLsbD _ _ _ _ c.num_lt]
  simp

/-- A condition raised or cleared writes its active flag; the rest of what it does is a reaction (R176, R178). -/
theorem setCond_still (c : Cond) (b : Bool) (s : Part) : Undisturbed (s.markActive c b) (setCond c b s) := by
  unfold setCond
  split
  · rename_i h
    rw [markActive_same s c b h]
    rfl
  · simp only
    split
    · rfl
    · exact Eq.trans (Reaction.oweNotice c _).still rfl

/-- A condition that stands as asked changes nothing. -/
theorem setCond_same (c : Cond) (b : Bool) (s : Part) (h : s.active c = b) : setCond c b s = s := if_pos h

/-- Level conditions that stand as their causes change nothing (R176). -/
theorem syncConds_calm (s : Part) (h : ∀ x ∈ levelCauses s, s.active x.1 = x.2) : syncConds s = s := by
  have fold : ∀ l : List (Cond × Bool), (∀ x ∈ l, s.active x.1 = x.2) →
      l.foldl (fun t x => setCond x.1 x.2 t) s = s := by
    intro l
    induction l with
    | nil => exact fun _ => rfl
    | cons x l ih =>
      intro h
      rw [List.foldl_cons, setCond_same _ _ _ (h x List.mem_cons_self)]
      exact ih fun y hy => h y (List.mem_cons_of_mem _ hy)
  unfold syncConds
  rw [fold _ h]
  exact ite_self _

/-- The end of an event in a calm part only lets the two timers follow the state. -/
theorem finish_calm (s : Part) (h : s.calm) : finish s = followIdle (followQuiet s) := by
  unfold finish testDeferral
  rw [syncConds_calm s h.2, if_neg (by rw [h.1]; exact fun k => absurd k.1 (by decide))]

theorem finish_still (s : Part) : Undisturbed s (finish s) := (Reaction.finish s).still

theorem eventIf_eq {b : Bool} {s : Part} (f : Part → Part) (hs : s.on = true) (hb : b = true) :
    eventIf b f s = finish (f s) := if_pos ⟨hs, hb⟩

/-- An event leaves alone what its effect leaves alone. -/
theorem eventIf_still {b : Bool} {f : Part → Part} {s : Part} (h : Undisturbed s (f s)) :
    Undisturbed s (eventIf b f s) := by
  unfold eventIf
  split
  · exact Eq.trans (finish_still _) h
  · rfl

/-! ### What follows a change of the link -/

/-- NODE_TABLE_FULL follows the room; nothing else changes (02: R29). -/
theorem followRoom_still (s : Part) : ∃ b, Undisturbed (s.markActive .nodeTableFull b) (followRoom s) := by
  unfold followRoom
  split
  · exact ⟨false, setCond_still _ _ _⟩
  · exact ⟨s.active .nodeTableFull, by rw [markActive_same _ _ _ rfl]; rfl⟩

/-- A change of the link made known writes the freshness of the inputs and NODE_TABLE_FULL; the rest is a reaction. -/
theorem followLink_still (s : Part) :
    ∃ b, Undisturbed ((followFreshness s).markActive .nodeTableFull b) (followLink s) := by
  obtain ⟨t, r, e⟩ := followLink_reaction s
  obtain ⟨b, h⟩ := followRoom_still t
  refine ⟨b, ?_⟩
  rw [e]
  refine Eq.trans h ?_
  have k : t.still = (followFreshness s).still := r.still
  have km : t.mgmt.active &&& ownMask = (followFreshness s).mgmt.active &&& ownMask := congrArg (·.mgmt.active) k
  have bit : ∀ v : BitVec 16, putBit v Cond.nodeTableFull.num b &&& ownMask
      = putBit (v &&& ownMask) Cond.nodeTableFull.num b &&& ownMask := by
    intro v
    apply BitVec.eq_of_getLsbD_eq
    intro i hi
    rw [BitVec.getLsbD_and, BitVec.getLsbD_and, putBit_getLsbD _ _ _ _ hi, putBit_getLsbD _ _ _ _ hi, BitVec.getLsbD_and]
    cases ownMask.getLsbD i <;> simp
  have e1 : ∀ u : Part, (u.markActive .nodeTableFull b).still =
      { u.still with mgmt := { u.still.mgmt with
          active := putBit (u.mgmt.active &&& ownMask) Cond.nodeTableFull.num b &&& ownMask } } := by
    intro u
    rw [← bit]
    rfl
  rw [e1, e1, k, km]

/-! ### Dispatch -/

/-- Dispatch of an entry its command takes. -/
theorem dispatchIf_eq {s : Part} {e : RxEntry} {test : RxEntry → Bool} (act : RxEntry → Part → Part)
    (ha : s.awake = true) (hn : s.nextEntry = some e) (ht : test e = true) :
    dispatchIf test act s = finish (act e (takeEntry s)) := by
  unfold dispatchIf
  rw [hn]
  exact if_pos ⟨ha, ht⟩

/-- Dispatch of an entry of another command. -/
theorem dispatchIf_other {s : Part} {e : RxEntry} {test : RxEntry → Bool} (act : RxEntry → Part → Part)
    (hn : s.nextEntry = some e) (ht : test e = false) : dispatchIf test act s = s := by
  unfold dispatchIf
  rw [hn]
  exact if_neg fun h => by rw [ht] at h; exact absurd h.2 (by decide)

/-- The part with its next entry taken and nothing said of a loss. -/
def Part.popped (s : Part) : Part :=
  { s.setRxQ s.nextQueue (s.rxQ s.nextQueue).tail with
    relay := { (s.setRxQ s.nextQueue (s.rxQ s.nextQueue).tail).relay with lastTaken := s.nextQueue } }

/-- A loss mark raises QUEUE_LOSS, and nothing more comes of the taking of an entry than flags and a NOTICE (02: R33). -/
theorem takeEntry_flags (s : Part) : FlagsOnly s.popped (takeEntry s) ∧
    ∃ b, Undisturbed (s.popped.markActive .queueLoss b) (takeEntry s) := by
  unfold takeEntry
  simp only
  split
  · exact ⟨FlagsOnly.setCond _ _ _, true, setCond_still _ _ _⟩
  · exact ⟨.refl _, s.popped.active .queueLoss, by rw [markActive_same _ _ _ rfl]; rfl⟩

/-- A NOTICE asked for queues no reply and holds none. -/
theorem requestNotice_replies (s : Part) : (requestNotice s).replyQueued = s.replyQueued ∧
    (requestNotice s).mgmt = s.mgmt := by
  have one : ∀ (p : Port) (e : OwnEntry) (s : Part), e.isReply = false → e.isLampCommand = false →
      (queueOwn e s p).replyQueued = s.replyQueued ∧ (queueOwn e s p).mgmt = s.mgmt := by
    intro p e s h1 h2
    unfold queueOwn
    split
    · exact ⟨rfl, rfl⟩
    · refine ⟨?_, rfl⟩
      have : ∀ q : List OwnEntry, (enqueue e q).any (·.isReply) = q.any (·.isReply) := by
        intro q
        unfold enqueue
        rw [if_neg (by simp [h2])]
        split
        · rw [List.any_append]
          simp [h1]
        · rfl
      cases p
      · show ((enqueue e (s.ownQ .front)).any (·.isReply) || _) = _
        rw [this]; rfl
      · show (_ || (enqueue e (s.ownQ .rear)).any (·.isReply)) = _
        rw [this]; rfl
  have fold : ∀ (ps : List Port) (e : OwnEntry) (s : Part), e.isReply = false → e.isLampCommand = false →
      (ps.foldl (queueOwn e) s).replyQueued = s.replyQueued ∧ (ps.foldl (queueOwn e) s).mgmt = s.mgmt := by
    intro ps e
    induction ps with
    | nil => exact fun s _ _ => ⟨rfl, rfl⟩
    | cons p ps ih =>
      intro s h1 h2
      have a := one p e s h1 h2
      have b := ih (queueOwn e s p) h1 h2
      exact ⟨b.1.trans a.1, b.2.trans a.2⟩
  unfold requestNotice
  split
  · exact ⟨rfl, rfl⟩
  · exact fold _ _ _ rfl rfl

/-- A condition raised or cleared queues no reply. -/
theorem setCond_replies (c : Cond) (b : Bool) (s : Part) : (setCond c b s).replyQueued = s.replyQueued ∧
    (setCond c b s).mgmt.hold = s.mgmt.hold := by
  unfold setCond
  split
  · exact ⟨rfl, rfl⟩
  · simp only
    split
    · exact ⟨rfl, rfl⟩
    · unfold oweNotice
      split
      · exact ⟨(requestNotice_replies _).1.trans rfl, by rw [(requestNotice_replies _).2]; rfl⟩
      · exact ⟨rfl, rfl⟩

/-- A condition raised or cleared writes its own active flag, sets changed flags and clears none; a change sets the
changed flag (10: R176). -/
theorem setCond_mgmt (c : Cond) (b : Bool) (s : Part) :
    (setCond c b s).mgmt.active = putBit s.mgmt.active c.num b ∧
    (setCond c b s).mgmt.changed = putBit s.mgmt.changed c.num (s.changed c || s.active c != b) := by
  have same : ∀ x, s.changed c = x → putBit s.mgmt.changed c.num x = s.mgmt.changed :=
    fun x hx => putBit_same _ _ _ c.num_lt hx
  unfold setCond
  split
  · rename_i h
    exact ⟨(putBit_same _ _ _ c.num_lt h).symm, by rw [h]; simp [same _ rfl]⟩
  · rename_i h
    have hx : (s.changed c || s.active c != b) = true := by simp [h]
    rw [hx]
    simp only
    split
    · rename_i k
      exact ⟨rfl, (same _ k).symm⟩
    · unfold oweNotice
      split
      · rw [(requestNotice_replies _).2]; exact ⟨rfl, rfl⟩
      · exact ⟨rfl, rfl⟩

theorem Cond.num_inj {c d : Cond} (h : c.num = d.num) : c = d := by cases c <;> cases d <;> first | rfl | cases h

theorem setCond_active (c : Cond) (b : Bool) (s : Part) (d : Cond) :
    (setCond c b s).active d = if d = c then b else s.active d := by
  show (setCond c b s).mgmt.active.getLsbD _ = _
  rw [(setCond_mgmt c b s).1, putBit_getLsbD _ _ _ _ d.num_lt]
  by_cases h : d = c
  · rw [if_pos h, if_pos (by rw [h])]
  · rw [if_neg h, if_neg fun k => h (Cond.num_inj k)]; rfl

theorem setCond_changed (c : Cond) (b : Bool) (s : Part) (d : Cond) :
    (setCond c b s).changed d = if d = c then s.changed c || s.active c != b else s.changed d := by
  show (setCond c b s).mgmt.changed.getLsbD _ = _
  rw [(setCond_mgmt c b s).2, putBit_getLsbD _ _ _ _ d.num_lt]
  by_cases h : d = c
  · rw [if_pos h, if_pos (by rw [h])]
  · rw [if_neg h, if_neg fun k => h (Cond.num_inj k)]; rfl

/-- The level conditions followed in a running part: each active flag stands as its cause, every flag that changed has
its changed flag set, no changed flag is lost, and the other flags stay (10: R176). -/
theorem syncConds_flags (s : Part) (hs : s.on = true) :
    (∀ x ∈ levelCauses s, (syncConds s).active x.1 = x.2 ∧
      (syncConds s).changed x.1 = (s.changed x.1 || s.active x.1 != x.2)) ∧
    ∀ c, (∀ x ∈ levelCauses s, x.1 ≠ c) →
      (syncConds s).active c = s.active c ∧ (syncConds s).changed c = s.changed c := by
  have fold : ∀ (l : List (Cond × Bool)) (s : Part), (l.map (·.1)).Nodup →
      (∀ x ∈ l, (l.foldl (fun t x => setCond x.1 x.2 t) s).active x.1 = x.2 ∧
        (l.foldl (fun t x => setCond x.1 x.2 t) s).changed x.1 = (s.changed x.1 || s.active x.1 != x.2)) ∧
      ∀ c, (∀ x ∈ l, x.1 ≠ c) → (l.foldl (fun t x => setCond x.1 x.2 t) s).active c = s.active c ∧
        (l.foldl (fun t x => setCond x.1 x.2 t) s).changed c = s.changed c := by
    intro l
    induction l with
    | nil => exact fun s _ => ⟨fun x h => absurd h List.not_mem_nil, fun c _ => ⟨rfl, rfl⟩⟩
    | cons y l ih =>
      intro s hn
      rw [List.map_cons, List.nodup_cons] at hn
      have k := ih (setCond y.1 y.2 s) hn.2
      have away : ∀ x ∈ l, x.1 ≠ y.1 := fun x hx e => hn.1 (List.mem_map.2 ⟨x, hx, e⟩)
      refine ⟨fun x hx => ?_, fun c hc => ?_⟩
      · rcases List.mem_cons.1 hx with rfl | hx
        · rw [List.foldl_cons, (k.2 _ away).1, (k.2 _ away).2, setCond_active, setCond_changed, if_pos rfl, if_pos rfl]
          exact ⟨rfl, rfl⟩
        · rw [List.foldl_cons, (k.1 x hx).1, (k.1 x hx).2, setCond_active, setCond_changed, if_neg (away x hx),
            if_neg (away x hx)]
          exact ⟨rfl, rfl⟩
      · have hl : ∀ x ∈ l, x.1 ≠ c := fun x hx => hc x (List.mem_cons_of_mem _ hx)
        have hy : c ≠ y.1 := fun e => hc y List.mem_cons_self e.symm
        rw [List.foldl_cons, (k.2 c hl).1, (k.2 c hl).2, setCond_active, setCond_changed, if_neg hy, if_neg hy]
        exact ⟨rfl, rfl⟩
  unfold syncConds
  rw [if_pos hs]
  exact fold _ s (by simp only [levelCauses, List.map_cons, List.map_nil]; decide)

/-! ### Ports written -/

/-- A port record written brings flags and NOTICEs, and nothing else, to the part with the record in place (01: R10;
10: R176, R178). -/
theorem writePort_reaction (p : Port) (r : PortRec) (s : Part) :
    FlagsOnly (placePort p r s) (writePort p r s) ∧ Reaction (placePort p r s) (writePort p r s) :=
  ⟨(FlagsOnly.syncConds _).trans (.ite (.requestNotice _) (.refl _)),
   (Reaction.syncConds _).trans (.ite (.requestNotice _) (.refl _))⟩

/-- A port record put in place stands there, but for a frame it is sending, which is to end with ABORT (01: R16). -/
theorem placePort_port (p : Port) (r : PortRec) (s : Part) : ∃ tx, (placePort p r s).port p = { r with tx := tx } := by
  unfold placePort abortTx
  simp only
  split
  · split
    · split <;> cases p <;> exact ⟨_, rfl⟩
    all_goals exact ⟨r.tx, setPort_port s p r⟩
  · exact ⟨r.tx, setPort_port s p r⟩

/-- What the taking of an entry leaves for its consumer. -/
theorem takeEntry_ready (s : Part) : (takeEntry s).mgBusy = s.mgBusy ∧ (takeEntry s).tables = s.tables ∧
    (takeEntry s).on = s.on ∧ (takeEntry s).power = s.power ∧ (takeEntry s).ports = s.ports ∧
    SameOutputs s (takeEntry s) := by
  obtain ⟨f, b, k⟩ := takeEntry_flags s
  refine ⟨?_, k.tables, k.on, f.power, f.ports, f.outputs⟩
  have hr : (takeEntry s).replyQueued = s.replyQueued ∧ (takeEntry s).mgmt.hold = s.mgmt.hold := by
    unfold takeEntry
    simp only
    split
    · exact ⟨(setCond_replies _ _ _).1, (setCond_replies _ _ _).2⟩
    · exact ⟨rfl, rfl⟩
  unfold Part.mgBusy
  rw [hr.1, hr.2, k.mgmt.1]
  rfl

/-- A request that finds room, permission and fitting data is carried out (10: R164). -/
theorem serve_ready {s : Part} {e : RxEntry} {permitted : Part → RxEntry → Bool} {lengthOk : Nat → Bool}
    (carry : Request → Part → Part) (hb : s.mgBusy = false) (hp : permitted s e = true)
    (hl : lengthOk e.request.data.length = true) :
    serve permitted lengthOk carry e s = restartIdle (carry e.request s) := by
  unfold serve
  simp only [hb, hp, hl]
  rfl

/-- The end of a request's event only reacts. -/
theorem Reaction.requestEnd (s : Part) : Reaction s (Machine.finish (Machine.restartIdle s)) :=
  (Reaction.restartIdle s).trans (.finish _)

/-! ### Answers -/

/-- An answered request has its reply on the way (10: R166). -/
theorem answerRequest_answered (q : Request) (a : Answer) (s : Part) : (answerRequest q a s).answered q a := by
  unfold answerRequest prepareReply
  split
  · exact .inr (.inr (.inr (List.mem_append_right _ List.mem_cons_self)))
  · unfold handReply queueOwn
    split
    · rename_i h; exact .inl h
    · refine .inr (Classical.or_iff_not_imp_left.2 fun full => .inl ?_)
      rw [setOwnQ_ownQ] at full ⊢
      unfold enqueue at full ⊢
      rw [if_neg (by simp [OwnEntry.isLampCommand, OwnEntry.urgent])] at full ⊢
      split at full
      · rename_i room; rw [if_pos room]; exact List.mem_append_right _ List.mem_cons_self
      · rename_i room; exact absurd (Nat.le_of_not_lt room) full

/-- No reaction takes an answer back. -/
theorem Part.answered.mono {s t : Part} {q : Request} {a : Answer} (h : s.answered q a) (r : Reaction s t) :
    t.answered q a := by
  have hn : t.mgmt.node = s.mgmt.node := r.still.mgmt.2.2.2.2.2.1
  rcases h with h | h | h | h
  · exact .inl (by rw [(r.still.portRest _).1]; exact h)
  · exact .inr (.inl (Nat.le_trans h (r.ownQ _).1))
  · exact .inr (.inr (.inl (by rw [hn]; exact r.replies _ _ rfl h)))
  · exact .inr (.inr (.inr (by rw [hn]; exact r.held _ h)))

end Sys2Proof.Machine
end

