-- ==== Sys2Proof/WellFormed.lean ====
section
/-! DEFINITION. The ranges of the commands' operands. A command outside them names nothing the part can meet;
`exec` does not look at these checks (entry 31). -/

namespace Sys2Proof

/-- A measured current is 0.0-25.5 A in 0.1 A units (04: R62). -/
def currentOk (a : Nat) : Bool := a ≤ 255

/-- A current as a driver watches it, in mA, over the range a measured current has (04: R62, R69; entry 8). -/
def watchedOk (milliamps : Nat) : Bool := milliamps ≤ 25500

/-- A supply sample is a figure of 16 bits in 0.01 V (11: Table 8, filtered supply). -/
def supplyOk (v : Nat) : Bool := v ≤ 65535

/-- A source byte a good frame can carry: not 0, not 63 (01: R6; entry 14). -/
def nodeOk (n : Nat) : Bool := 1 ≤ n && n ≤ 255 && n != 63

/-- The operands of a command lie in their ranges. -/
def Instr.wf : Instr → Bool
  | .sampleClock lamps fan => lamps.toList.all currentOk && currentOk fan
  | .flashSample lamps => lamps.toList.all currentOk
  | .stall current => currentOk current
  | .overloadLevelCrossing _ milliamps | .fanOverloadLevelCrossing milliamps => watchedOk milliamps
  | .duplicateClear node => nodeOk node
  | .supplySample v => supplyOk v
  | .startSymbol _ | .dataSymbol _ _ | .endSymbol _ | .abortSymbol _ | .fillSymbol _ | .portQuiet _
  | .lineActivity _ | .transmitStart _ | .transmitEnd _ | .relayAgeOut _ | .nodeAgeStep
  | .ownNumberTimerExpiry | .switchState | .senderReport | .lampStatus | .unknownKind | .read | .select
  | .readNext | .write | .writeNext | .hold | .release | .commit | .sleep | .assign | .reframe | .clear
  | .clearCounters | .commitComplete _ | .overload _ | .shortTrip _
  | .retryTimerExpiry _ | .refreshTimerExpiry _ | .onPhaseEdge | .offPhaseEdge | .rampStep
  | .stallWaitExpiry | .fanOverload | .gaugeTick | .parkRampEnd _
  | .ignitionLineChange _ _ | .ignitionDebounceExpiry _ | .nvLoad | .powerOnStart | .settlingExpiry
  | .idleExpiry | .dormantEntry | .quietEntry | .unknownOp => true

end Sys2Proof
end

