-- ==== Sys2Proof/Tests/Slice0.lean ====
section
/-! SUPPORT. Small checks: the ranges of operands, figures worked out in the manual, single commands on small states,
and for every obligation with hypotheses a state that meets them. -/

namespace Sys2Proof.Machine

set_option Elab.async false

/-! ### Ranges of operands: each check refuses something -/

theorem test_wf_lamp_current : (Instr.sampleClock (tab fun i => if i = 11 then 256 else 0) 0).wf = false := by decide
theorem test_wf_fan_current : (Instr.sampleClock (tab fun _ => 255) 256).wf = false := by decide
theorem test_wf_flash_current : (Instr.flashSample (tab fun i => if i = 0 then 256 else 0)).wf = false := by decide
theorem test_wf_stall_current : (Instr.stall 256).wf = false := by decide
theorem test_wf_lamp_crossing : (Instr.overloadLevelCrossing 0 25501).wf = false := by decide
theorem test_wf_fan_crossing : (Instr.fanOverloadLevelCrossing 25501).wf = false := by decide
theorem test_wf_node_zero : (Instr.duplicateClear 0).wf = false := by decide
theorem test_wf_node_all : (Instr.duplicateClear 63).wf = false := by decide
theorem test_wf_node_byte : (Instr.duplicateClear 256).wf = false := by decide
theorem test_wf_supply : (Instr.supplySample 65536).wf = false := by decide
theorem test_wf_accepts : (Instr.sampleClock (tab fun _ => 255) 255).wf ∧ (Instr.duplicateClear 62).wf
    ∧ (Instr.supplySample 65535).wf ∧ (Instr.overloadLevelCrossing 0 25500).wf
    ∧ (Instr.fanOverloadLevelCrossing 25500).wf := by decide

/-! ### Figures of the manual -/

/-- 01: Table 3. -/
theorem test_sum8_example : checkBytes .sum8 [40, 0, 12, 0x11, 1, 2] = [0xB8] := by decide

/-- No row of the table gives bits. -/
theorem test_no_bits : decodeTableWord 8 0 = none := by decide

/-! ### Small states -/

/-- A running part with the ignition at RUN and both ports DOWN, its limit at the row of RUN, CHARGING. -/
def onPart : Part :=
  let p := Part.powerOn .running (.filling 2) true true false none (tab fun _ => 1400) resetStore 0 false true
  { p with
    arbiter := { Arbiter.empty with limit := 300 }
    power := { p.power with
      acc := { raw := true, level := true, timer := none }, run := { raw := true, level := true, timer := none }
      charging := .charging, mode := .running, reference := true, settled := true } }

/-- A port that is UP and sends FILL. -/
def upPort : PortRec := { PortRec.powerOn .auto (.filling 2) with state := .up, quiet := some 20 }

/-- The running part with both ports UP. -/
def upPart : Part := { onPart with ports := ⟨upPort, upPort⟩ }

/-- A part in a mode, with the ignition OFF. -/
def modePart (m : Mode) : Part :=
  { upPart with
    power := { upPart.power with
      acc := { raw := false, level := false, timer := none }, run := { raw := false, level := false, timer := none }
      mode := m, reference := m.referenceOn, settled := m.referenceOn } }

/-- A state with nothing waiting. -/
def stateOf (p : Part) : State := { part := p, pending := [] }

/-- A receive-queue entry of FRONT. -/
def entry (dest source kind : Nat) (payload : List Byte) : RxEntry :=
  { dest := dest, route := 0, source := source, kind := kind, payload := payload, arrival := .front, mode := .check16,
    lossMark := false }

/-- A part with one entry to dispatch. -/
def withEntryOf (e : RxEntry) (p : Part) : Part := p.setRxQ .front [e]

/-- A request of the service tool at node 9. -/
def ask (bytes : List Byte) : RxEntry := entry 40 9 0x51 bytes

/-- A part whose FRONT port is receiving a frame. -/
def receiving (phase : RxPhase) (bytes : List Byte) (half : Option Nibble) (p : Part) : Part :=
  p.setRx .front { Rx.idle with phase := phase, bytes := bytes, half := half }

/-- A part with a local lamp, channel 0, ON at a demand. -/
def lampPart (d : Demand) : Part :=
  { upPart with
    channels := { upPart.channels with
      chans := put upPart.channels.chans 0 { Chan.off with demand := d, state := .on, overload := some 20 } }
    arbiter := { upPart.arbiter with grants := put upPart.arbiter.grants 0 50, order := [0] } }

/-- A part whose fan is in a state. -/
def fanPart (f : Fan) : Part := { upPart with fan := f }

/-- A gauge PARKED with the default figures. -/
def restGauge : Gauge := Gauge.parkedAt (defaultGauge 0)

/-- A part with gauge G0 in a state. -/
def gaugePart (r : Gauge) : Part := { upPart with gauges := put upPart.gauges 0 r }

/-- A request is carried out. -/
theorem serves_of {p : Part} {r : OpRow} {e : RxEntry} (h : p.awake = true ∧ p.nextEntry = some e ∧ e.kind = 0x51 ∧
    3 ≤ e.payload.length ∧ (e.payload.getD 0 0).toNat = r.code ∧ p.mgBusy = false ∧ r.permitted p e = true ∧
    r.lengthOk (e.payload.length - 3) = true) : p.serves r e :=
  ⟨⟨h.1, h.2.1, h.2.2.1, h.2.2.2.1, h.2.2.2.2.1⟩, h.2.2.2.2.2.1, h.2.2.2.2.2.2.1, h.2.2.2.2.2.2.2⟩

theorem witness_calm : upPart.calm := ⟨rfl, by decide⟩

/-! ### States that meet the hypotheses of the obligations, in their order -/

theorem witness_EmptyQueue : State.reset.pending = [] ∧ State.reset.part.power.stage ≠ .held ∧
    (Part.powerOn .held .dark false false false none resetSamples resetStore 0 false true).power.stage = .held := by
  decide

/-- Claims of lamps 1 and 2, of the fan and of lamp 3 wait behind a full budget. -/
def queuePart : Part :=
  let claim := fun (ch : Fin 25) (cls : Class) (shed : Bool) =>
    ({ chan := ch, amount := 20, cls := cls, shed := shed } : Claim)
  { lampPart .steady with arbiter := { (lampPart .steady).arbiter with
      limit := 50
      claims := [claim 1 .safety true, claim 2 .safety false, claim fanChan .comfort true, claim 3 .comfort false] } }

theorem queuePart_claimsOk : queuePart.claimsOk := by unfold Part.claimsOk inClaimOrder; decide +kernel

theorem witness_BudgetLaw : queuePart.budgetOk ∧ queuePart.claimsOk ∧ ∃ t, step (stateOf queuePart) = .next t :=
  ⟨⟨by decide +kernel, by decide +kernel⟩, queuePart_claimsOk, _, rfl⟩

theorem witness_GaugeAndReferenceLaws : upPart.gaugesOk ∧ upPart.referenceOk ∧ (modePart .dormant).gaugesOk ∧
    (modePart .dormant).referenceOk ∧ ∃ t, step (stateOf upPart) = .next t :=
  ⟨⟨by decide, by decide⟩, fun _ => rfl, ⟨by decide, by decide⟩, fun _ => rfl, _, rfl⟩

/-- A node-table entry. -/
def nodeOf (n age : Nat) (p : Port) : NodeEntry := { NodeEntry.fresh n 0x11 p with age := age }

/-- The running part with two nodes in its table. -/
def nodesPart : Part := upPart.setNodes [nodeOf 9 0 .front, nodeOf 12 29 .front, nodeOf 13 30 .rear]

theorem witness_NodeTable : nodesPart.nodesOk :=
  ⟨by decide, by unfold rising; decide, by decide, by decide⟩

/-- A full receive queue but for the reserved place, the same of the relay queue, and a full own transmit queue. -/
def crowdedPart : Part :=
  ((((upPart.setOwnQ .rear (List.replicate 8 { dest := 9, source := 40, body := .notice })).setRxQ .front (List.replicate 7 (ask []))).setRelayQ .front
    (List.replicate 5 { header := [], payload := [], waited := 500 })).setRx .front
      { Rx.idle with phase := .body, take := .reserved, relay := .reserved })

theorem witness_QueuePlaces : crowdedPart.queuesOk ∧ crowdedPart.rxPlaces .front = 8 ∧
    crowdedPart.relayPlaces .front = 6 ∧ (crowdedPart.ownQ .rear).length = 8 :=
  ⟨fun p => by cases p <;> decide +kernel, by decide +kernel, by decide +kernel, by decide +kernel⟩

/-- A part that sends a frame on FRONT in a check mode. -/
def sendingPart (m : CheckMode) (f : TxFrame) : Part :=
  upPart.setPort .front { upPart.port .front with mode := m, tx := .sending f }

/-- A frame of an origin. -/
def frameOf (origin : TxOrigin) (complete : Bool) (abort : Option AbortCause) : TxFrame :=
  { header := [40, 0, 12, 0x11], payload := [1, 2], origin := origin, complete := complete, abort := abort }

theorem witness_Check16 : (sendingPart .check16 (frameOf .notice true none)).on = true ∧
    ((sendingPart .check16 (frameOf .notice true none)).port .front).mode = .check16 := by decide
theorem witness_Sum8 : (sendingPart .sum8 (frameOf .notice true none)).on = true ∧
    ((sendingPart .sum8 (frameOf .notice true none)).port .front).mode = .sum8 := by decide

theorem witness_AcceptedWrites :
    (∃ t, writeEntry 1 0 [40, 9, 0, 1, 0, 0] upPart = .ok t) ∧ (∃ t, writeEntry 3 3 [62] upPart = .ok t) ∧
    (∃ t, writeEntry 5 0 [1, 0, 100, 0, 0] upPart = .ok t) ∧ (∃ t, writeEntry 5 16 [1, 0, 100, 0, 0] upPart = .error t) ∧
    (∃ t, writeEntry 5 17 [0, 0, 250, 20, 7] upPart = .ok t) ∧ (∃ t, writeEntry 11 0 [255] upPart = .ok t) :=
  ⟨⟨_, rfl⟩, ⟨_, rfl⟩, ⟨_, rfl⟩, ⟨_, rfl⟩, ⟨_, rfl⟩, ⟨_, rfl⟩⟩

theorem witness_SymbolTakesDownPort : onPart.on = true ∧ onPart.mode ≠ .quiet ∧ (onPart.port .front).state = .down := by
  decide
theorem witness_SymbolWakes : (modePart .quiet).on = true ∧ (modePart .quiet).mode = .quiet := by decide
theorem witness_Start : ∀ x ∈ [RxPhase.idle, .header, .body, .discard],
    (receiving x [] none upPart).on = true ∧ (receiving x [] none upPart).mode ≠ .quiet ∧
    ((receiving x [] none upPart).port .front).rx.phase = x := by decide

theorem witness_Data :
    (∀ x ∈ [(RxPhase.idle, 0, none), (.discard, 0, none), (.header, 0, none), (.header, 2, some 5#4),
        (.body, 21, some 5#4), (.body, 22, none)],
      let p := receiving x.1 (List.replicate x.2.1 0) x.2.2 upPart
      p.on = true ∧ p.mode ≠ .quiet ∧ (p.port .front).rx.phase = x.1 ∧ (p.port .front).rx.bytes.length = x.2.1 ∧
      (p.port .front).rx.half = x.2.2) := by decide +kernel

/-- FRONT at the last nibble of a header; relay toward REAR by cut-through or not. -/
def headerPart (dest route : Byte) (cut : Bool) : Part :=
  let p := receiving .header [dest, route, 5] (some 1) upPart
  p.setTables { p.tables with link := { p.tables.link with relayFront := if cut then .cut else .store } }

theorem witness_HeaderTime (dest route : Byte) (cut : Bool) :
    let p := headerPart dest route cut
    p.on = true ∧ p.mode ≠ .quiet ∧ (p.port .front).state ≠ .down ∧ (p.port .front).rx.phase = .header ∧
    (p.port .front).rx.bytes = [dest, route, 5] ∧ (p.port .front).rx.half = some 1 ∧ (p.port .rear).tx = .filling 2 ∧
    p.mayCut .front = cut :=
  ⟨rfl, (show Mode.running ≠ .quiet by decide), (show LinkState.up ≠ .down by decide), rfl, rfl, rfl, rfl, by cases cut <;> rfl⟩

/-- FRONT, in SUM8 mode, at the END of the frame of 01: Table 3, with the copies decided. -/
def goodPart (take : TakeCopy) (relay : RelayCopy) (bytes : List Byte) : Part :=
  let p := receiving .body bytes none upPart
  let q := p.setPort .front { p.port .front with
    mode := .sum8, rx := { (p.port .front).rx with take := take, relay := relay, mode := .sum8 } }
  q.setTx .rear (.sending (frameOf (.cutThrough .front) false none))

/-- 01: Table 3. -/
def goodBytes : List Byte := [40, 0, 12, 0x11, 1, 2, 0xB8]

theorem witness_GoodFrame : ∀ take ∈ [TakeCopy.none, .reserved, .noPlace],
    ∀ relay ∈ [RelayCopy.none, .reserved, .cutThrough],
    let p := goodPart take relay goodBytes
    p.on = true ∧ p.mode ≠ .quiet ∧ (p.port .front).state ≠ .down ∧ (p.port .front).rx.phase = .body ∧
    judge (p.port .front).mode (p.port .front).rx.bytes (p.port .front).rx.half = .good ∧
    (p.port .front).rx.take = take ∧ (p.port .front).rx.relay = relay := by decide

/-- A full table of pinned nodes. -/
def fullNodes : List NodeEntry :=
  (List.range 24).map fun n => { nodeOf (n + 1) 300 .front with pinned := true }

/-- A full table without node 12: pinned entries, and two unpinned LOST ones of one age. -/
def evictNodes : List NodeEntry := fullNodes.filter (fun e => e.node != 12 && e.node != 7) ++
  [nodeOf 41 300 .rear, nodeOf 62 300 .front]

theorem witness_TeachesEvicts :
    let p := (goodPart .none .none goodBytes).setNodes evictNodes
    p.node 12 = none ∧ p.nodesOk ∧ p.relay.nodes.length = 24 ∧ ∃ e ∈ p.relay.nodes, e.pinned = false ∧ 300 ≤ e.age :=
  ⟨by decide +kernel, ⟨by decide +kernel, by unfold rising; decide +kernel, by decide +kernel, fun h => absurd h (by decide +kernel)⟩,
    by decide +kernel, by decide +kernel⟩

theorem witness_Teaches :
    let p := goodPart .none .none goodBytes
    (p.node 12 = none ∧ p.relay.nodes.length < 24) ∧
    (∀ m ∈ [(0, 0, false), (1, 9999, false), (1, 10000, false), (2, 5, false), (3, 5, true)],
      let e := { nodeOf 12 3 .rear with moves := m.1, window := m.2.1, duplicate := m.2.2 }
      (p.setNodes [e]).node 12 = some e) ∧
    ((p.setNodes (fullNodes.filter (·.node != 12) ++ [{ nodeOf 62 300 .front with pinned := true }])).node 12 = none ∧
      (p.setNodes (fullNodes.filter (·.node != 12) ++ [{ nodeOf 62 300 .front with pinned := true }])).relay.nodes.length
        = 24) := by decide +kernel

/-- A SENDER gauge of node 12, of a type. -/
def senderCfg (type : GaugeType) : GaugeCfg :=
  { defaultGauge 0 with type := type, source := .sender, node := 12, nominal := 10 }

/-- A safety lamp of 2.0 A at output 0 of a lamp node. -/
def remoteCfg (n : Nat) : ChanCfg := { cls := .safety, nominal := 20, node := n, output := 0 }

/-- FRONT at the END of a good frame of node 12, a lamp node and the sender of gauge G0, heard no more till now. -/
def returnPart (g : Gauge) : Part :=
  let p := (goodPart .none .none goodBytes).setNodes [nodeOf 12 300 .front]
  let q := p.setTables { p.tables with
    channels := put p.tables.channels 17 (remoteCfg 12), gauges := put p.tables.gauges 0 (senderCfg .coil) }
  { q with
    channels :=
      { chans := put q.channels.chans 17 { Chan.off with demand := .steady, state := .unreachable }
        lampNodes := [{ LampNode.unused with node := 12 }], flashSample := none }
    gauges := put q.gauges 0 g }

theorem witness_TeachesReturns : ∀ g ∈ [{ restGauge with state := .lost, lostMark := true },
      { restGauge with state := .parking, rampLeft := 3, lostMark := true }, { restGauge with state := .parking },
      { restGauge with lostMark := true }],
    let p := returnPart g
    let t := match exec (.endSymbol .front) (stateOf p) with | .next t => t.part | _ => p
    p.on = true ∧ (p.port .front).rx.phase = .body ∧ (p.port .front).reframe = false ∧ p.power.deferral = false ∧
    judge (p.port .front).mode (p.port .front).rx.bytes (p.port .front).rx.half = .good ∧ p.mgmt.node ≠ 12 ∧
    (t.node 12).isSome = true ∧ t.inputs = p.inputs ∧ (p.lampNode 12).map (·.reachable) = some false ∧
    (t.port .front).state = .up ∧ p.mode ≠ .held ∧ (t.ownQ .front).length < 8 ∧ (p.chan 17).state = .unreachable ∧
    0 < (p.chanCfg 17).nominal ∧ p.grant 17 = 0 ∧ p.claimOf 17 = none ∧ (p.gaugeCfg 0).source = .sender ∧
    (p.gaugeCfg 0).node = 12 ∧ p.gauge 0 = g := by decide +kernel

/-- FRONT at END with its counts. -/
def countPart (st : LinkState) (good bad alt : Nat) (mode : CheckMode) (bytes : List Byte) : Part :=
  let p := receiving .body bytes none upPart
  p.setPort .front { p.port .front with state := st, good := good, bad := bad, alt := alt, mode := mode }

/-- A REFRAME of FRONT waits for the end of the frame, and FRONT_DOWN is active. -/
def reframing (p : Part) : Part :=
  (p.setPort .front { p.port .front with reframe := true }).markActive .frontDown true

theorem witness_Counts :
    (∀ x ∈ [countPart .seeking 1 0 0 .sum8 goodBytes, countPart .seeking 0 2 0 .sum8 goodBytes,
        countPart .up 3 2 0 .sum8 goodBytes],
      x.on = true ∧ x.mode ≠ .quiet ∧ (x.port .front).state ≠ .down ∧ (x.port .front).rx.phase = .body ∧
      (x.port .front).reframe = false ∧ judge .sum8 goodBytes none = .good) ∧
    (let x := reframing (countPart .seeking 1 0 0 .sum8 goodBytes)
     x.mode ≠ .quiet ∧ (x.port .front).rx.phase = .body ∧ (x.port .front).reframe = true ∧
     x.active .frontDown = true) ∧
    (let x := reframing (countPart .seeking 0 3 3 .check16 goodBytes)
     (x.port .front).reframe = true ∧ x.active .legacySegment = false ∧ (x.port .front).lock = .auto) ∧
    (∀ x ∈ [countPart .up 0 2 0 .check16 goodBytes, countPart .up 0 1 0 .check16 goodBytes,
        countPart .seeking 0 3 3 .check16 goodBytes, countPart .seeking 0 3 2 .check16 goodBytes],
      x.on = true ∧ (x.port .front).rx.phase = .body ∧ (x.port .front).reframe = false ∧
      judge .check16 goodBytes none ≠ .good ∧ judge .sum8 goodBytes none = .good) := by decide +kernel

theorem witness_BadFrame :
    (∀ x ∈ [countPart .up 0 0 0 .check16 [1, 2, 3, 4, 5], countPart .up 0 0 0 .sum8 [1, 2, 3, 4],
        countPart .up 0 0 0 .sum8 (List.replicate 22 0), countPart .up 0 0 0 .sum8 [40, 0, 63, 1, 152],
        countPart .up 0 0 0 .sum8 [40, 0, 0, 1, 215], countPart .up 0 0 0 .sum8 [40, 0, 12, 1, 0]],
      x.on = true ∧ x.mode ≠ .quiet ∧ (x.port .front).state ≠ .down ∧ (x.port .front).rx.phase = .body) ∧
    checkPasses .sum8 [40, 0, 63, 1, 152] = true ∧ checkPasses .sum8 [40, 0, 0, 1, 215] = true ∧
    checkPasses .sum8 [40, 0, 12, 1, 0] = false := by decide

theorem witness_Break : ∀ x ∈ [RxPhase.idle, .header, .body, .discard],
    (receiving x [] none upPart).on = true ∧ (receiving x [] none upPart).mode ≠ .quiet ∧
    ((receiving x [] none upPart).port .front).state ≠ .down ∧
    ((receiving x [] none upPart).port .front).reframe = false := by decide

theorem witness_PortQuiet : upPart.on = true ∧ (upPart.port .front).state ≠ .down ∧
    (upPart.port .front).quiet ≠ none ∧ upPart.active .frontDown = false := by decide

/-- An own entry. -/
def ownOf (body : OwnBody) : OwnEntry := { dest := 9, source := 40, body := body }

/-- A part with frames waiting for FRONT. -/
def waitingPart (own : List OwnEntry) (relayed : List RelayEntry) (hold : List Reply) : Part :=
  ((upPart.setOwnQ .front own).setRelayQ .rear relayed).setHold hold

/-- A stored relay copy. -/
def relayOf : RelayEntry := { header := [7, 0, 5, 0x11], payload := [1], waited := 500 }

/-- A held reply. -/
def heldOf : Reply := { dest := 9, arrival := .front, source := 40, payload := [1, 0, 0] }

theorem witness_TransmitStart :
    ∀ x ∈ [waitingPart [ownOf (.reply []), ownOf .notice] [relayOf] [], waitingPart [ownOf (.reply [])] [relayOf] [],
        waitingPart [ownOf (.reply [])] [] [], waitingPart [ownOf (.reply [])] [] [heldOf], waitingPart [] [] []],
      x.on = true ∧ (x.port .front).state = .up ∧ (x.port .front).tx = .filling 2 ∧ x.power.deferral = false ∧
      (∀ y ∈ levelCauses x, x.active y.1 = y.2) := by decide

theorem witness_TransmitEnd :
    ∀ f ∈ [frameOf .notice true none, frameOf (.relayed .rear) true (some .portLeft),
        frameOf (.cutThrough .rear) false none, frameOf (.cutThrough .rear) false (some .badFrame)],
      (sendingPart .check16 f).on = true ∧ ((sendingPart .check16 f).port .front).tx = .sending f := by decide
theorem witness_TransmitEnd_calm : (sendingPart .check16 (frameOf .notice true none)).calm := ⟨rfl, by decide⟩

theorem witness_RelayTimers : (upPart.setRelayQ .rear [relayOf]).on = true ∧
    (upPart.setRelayQ .rear [relayOf]).relayQ .rear = [relayOf] ∧
    ({ upPart with relay := { upPart.relay with ownTimer := some 0 } } : Part).relay.ownTimer ≠ none := by decide

theorem witness_NodeAge : nodesPart.on = true ∧ nodesPart.node 12 = some (nodeOf 12 29 .front) ∧
    bump16 29 = 30 ∧ bump16 65535 = 65535 := by decide

/-- Lamp node 20 one step from SILENT, its channel 17 in a state, and node 12, the sender of gauge G0, one step from
LOST. -/
def leavingPart (st : ChanState) (type : GaugeType) (g : Gauge) : Part :=
  let p := upPart.setNodes [nodeOf 12 299 .front, nodeOf 20 29 .front]
  let q := p.setTables { p.tables with
    channels := put p.tables.channels 17 (remoteCfg 20), gauges := put p.tables.gauges 0 (senderCfg type) }
  { q with
    channels :=
      { chans := put q.channels.chans 17 { Chan.off with demand := .steady, state := st }
        lampNodes := [{ LampNode.unused with node := 20, reachable := true }], flashSample := none }
    gauges := put q.gauges 0 g }

/-- The cases of a channel and of a gauge that lose their node. -/
def leavingParts : List Part :=
  ([.waiting, .on, .shed, .off, .fault].map fun st => leavingPart st .coil { restGauge with state := .lost }) ++
  ([.coil, .thermal].map fun type => leavingPart .on type { restGauge with state := .tracking, lost := .park }) ++
  ([.repeating, .settling, .parked, .parking].map fun st =>
    leavingPart .on .coil { restGauge with state := st, lost := .hold })

theorem witness_NodeAgeLosses : ∀ p ∈ leavingParts,
    p.on = true ∧ p.power.deferral = false ∧ (p.node 20).map (·.age) = some 29 ∧
    p.channels.lampNodes.map (·.reachable) = [true] ∧ 0 < (p.chanCfg 17).nominal ∧ (p.chanCfg 17).node = 20 ∧
    p.claimOf 17 = none ∧ (p.gaugeCfg 0).source = .sender ∧ (p.node (p.gaugeCfg 0).node).map (·.age) = some 299 ∧
    p.claimOf (gaugeChan 0) = none ∧
    (match exec .nodeAgeStep (stateOf p) with | .next t => t.part.inputs | _ => p.inputs) = p.inputs := by decide +kernel

theorem witness_Dispatch :
    let q := (upPart.setRxQ .front [ask [1, 0, 0]]).setRxQ .rear [ask [2, 0, 0]]
    q.awake = true ∧ q.relay.lastTaken = .rear ∧ q.rxQ .front ≠ [] ∧ q.rxQ .rear ≠ [] ∧
    (upPart.setRxQ .rear [ask []]).rxQ .front = [] ∧ (upPart.setRxQ .front [ask []]).rxQ .rear = [] := by decide

/-- The five ways a SWITCH_STATE report can go at input 3. -/
def switchPart (x : Input) : Part :=
  let p := withEntryOf (entry 40 12 0x11 [1, 2]) (nodesPart.setInput 3 x)
  p.setTables { p.tables with
    switchMap := put p.tables.switchMap 0 { source := 12, slot := 1, input := 3, debounce := 2, limit := 2 } }

theorem witness_SwitchReport :
    (∀ x ∈ [{ Input.cleared with fresh := true }, { Input.cleared with fresh := true, resync := false, value := 2 },
        { Input.cleared with fresh := true, resync := false, candidate := some 2, count := 1 },
        { Input.cleared with fresh := true, resync := false }],
      (switchPart x).awake = true ∧ (switchPart x).nextEntry = some (entry 40 12 0x11 [1, 2]) ∧
      ((switchPart x).mapEntry 3).map (·.source) = some 12 ∧ ((switchPart x).port .front).state = .up ∧
      ((switchPart x).input 3).fresh = true) ∧
    (2 : Nat) ≤ ((entry 40 12 0x11 [1, 2]).payload.getD 1 0).toNat := by decide

/-- A report of node 12 to gauge G0, whose store holds so many samples. -/
def senderPart (n : Nat) (payload : List Byte) : Part :=
  let p := withEntryOf (entry 40 12 0x21 payload) (gaugePart
    { restGauge with state := .tracking, store := List.replicate n (.reading 5) })
  p.setTables { p.tables with
    gauges := put p.tables.gauges 0 { p.gaugeCfg 0 with source := .sender, node := 12, slot := 0, nominal := 10 } }

theorem witness_SenderReport : ∀ n ∈ [0, 7, 8], ∀ b ∈ [[3#8, 255#8], [4, 0], [255, 255], [255, 254], [], [1]],
    let p := senderPart n b
    p.awake = true ∧ p.nextEntry = some (entry 40 12 0x21 b) ∧ p.power.deferral = false ∧
    (p.gaugeCfg 0).source = .sender ∧ (p.gaugeCfg 0).node = 12 ∧ (p.gauge 0).state = .tracking ∧
    (p.gauge 0).store.length = n := by decide

/-- A LAMP_STATUS of lamp node 20, whose output 0 is remote channel 17, ON. -/
def statusPart (payload : List Byte) : Part :=
  let p := withEntryOf (entry 40 20 0x32 payload) upPart
  let q := p.setTables { p.tables with
    channels := put p.tables.channels 17 { cls := .safety, nominal := 20, node := 20, output := 0 } }
  { q with channels :=
    { chans := put q.channels.chans 17 { Chan.off with demand := .steady, state := .on }
      lampNodes := [{ LampNode.unused with node := 20, reachable := true, lit := 1, refresh := some 0 }]
      flashSample := none } }

theorem witness_LampStatus : ∀ b ∈ [[0#8, 0#8, 0#8], [1, 0, 5, 220], [2, 0, 5, 220], [3, 0, 5, 220]],
    let p := statusPart b
    p.awake = true ∧ p.nextEntry = some (entry 40 20 0x32 b) ∧ p.power.deferral = false ∧ p.lit 17 = true ∧
    (p.lampNode 20).isSome = true := by decide

/-! ### Requests -/

/-- A part with a request to dispatch. -/
def asked (bytes : List Byte) (p : Part) : Part := withEntryOf (ask bytes) p

/-- A part that serves the service node 8 only. -/
def lockedPart : Part :=
  upPart.setTables { upPart.tables with link := { upPart.tables.link with service := 8 } }

/-- A part with a COMMIT in progress. -/
def committing (p : Part) : Part := { p with mgmt := { p.mgmt with commit := some (ask [8, 0, 0]).request } }

theorem witness_TurnedAway :
    (asked [1, 0, 0] (upPart.setHold [heldOf])).mgBusy = true ∧
    (asked [6, 0, 0] lockedPart).mgBusy = false ∧ OpRow.hold.permitted (asked [6, 0, 0] lockedPart) (ask [6, 0, 0]) = false ∧
    OpRow.hold.permitted (asked [6, 0, 0, 1] upPart) (ask [6, 0, 0, 1]) = true ∧ OpRow.hold.lengthOk 1 = false ∧
    (ask [1, 0]).payload.length < 3 ∧ ((ask [14, 0, 0]).payload.getD 0 0).toNat = 14 ∧
    (∀ b ∈ [[1#8, 0#8], [14, 0, 0], [0, 0, 0], [6, 0, 0]], (asked b upPart).awake = true ∧
      (asked b upPart).nextEntry = some (ask b) ∧ (asked b upPart).mgBusy = false) := by decide

theorem witness_ReadOps :
    (asked [1, 9, 31] upPart).serves .read (ask [1, 9, 31]) ∧ (asked [1, 9, 32] upPart).serves .read (ask [1, 9, 32]) ∧
    (asked [1, 12, 0] upPart).serves .read (ask [1, 12, 0]) ∧ (asked [2, 24, 1] upPart).serves .select (ask [2, 24, 1]) ∧
    (asked [3, 0, 0] upPart).serves .readNext (ask [3, 0, 0]) ∧
    upPart.tableLength 9 = some 32 ∧ upPart.tableLength 12 = none ∧ upPart.tableLength 24 = some 2 :=
  ⟨serves_of (by decide), serves_of (by decide), serves_of (by decide), serves_of (by decide), serves_of (by decide),
   by decide, by decide, by decide⟩

theorem witness_WriteOps :
    (asked [4, 3, 3, 62] upPart).serves .write (ask [4, 3, 3, 62]) ∧
    (asked [4, 3, 4, 62] upPart).serves .write (ask [4, 3, 4, 62]) ∧
    (asked [4, 12, 0, 62] upPart).serves .write (ask [4, 12, 0, 62]) ∧
    (asked [4, 9, 0, 62] upPart).serves .write (ask [4, 9, 0, 62]) ∧
    (asked [4, 3, 0, 9] (committing upPart)).serves .write (ask [4, 3, 0, 9]) ∧
    (asked [5, 0, 0, 9] (setWindow 3 3 upPart)).serves .writeNext (ask [5, 0, 0, 9]) :=
  ⟨serves_of (by decide), serves_of (by decide), serves_of (by decide), serves_of (by decide), serves_of (by decide),
   serves_of (by decide)⟩

/-- A SLEEP waits in STANDING. -/
def sleepingPart : Part :=
  { modePart .standing with
    power := { (modePart .standing).power with deferral := true }
    mgmt := { (modePart .standing).mgmt with sleep := some (ask [9, 0, 0]).request } }

theorem witness_Hold :
    (asked [6, 0, 0] upPart).serves .hold (ask [6, 0, 0]) ∧
    (asked [6, 0, 0] (committing upPart)).serves .hold (ask [6, 0, 0]) ∧
    (asked [6, 0, 0] (modePart .held)).serves .hold (ask [6, 0, 0]) ∧
    (asked [6, 0, 0] (sleepingPart)).serves .hold (ask [6, 0, 0]) ∧ sleepingPart.mgmt.sleep ≠ none ∧
    sleepingPart.mgmt.commit = none ∧ sleepingPart.mode ≠ .held :=
  ⟨serves_of (by decide +kernel), serves_of (by decide +kernel), serves_of (by decide +kernel), serves_of (by decide +kernel), by decide +kernel, rfl, by decide +kernel⟩

/-- HELD, with the tables of a VALID store to load: one lamp node, 20; a command for a former lamp node and a NOTICE
wait for FRONT, and REAR is DOWN. -/
def heldPart : Part :=
  let p := modePart .held
  { (p.setOwnQ .front [ownOf (.lampCommand 1 0 100), ownOf .notice]) with
    arbiter := Arbiter.empty
    ports := ⟨upPort, PortRec.powerOn .auto (.filling 2)⟩
    mgmt := { p.mgmt with store :=
      { state := .valid, node := 40
        tables := { p.tables with channels := put p.tables.channels 17 (remoteCfg 20) } } } }

theorem witness_ReleaseBlocks :
    let t := match exec .release (stateOf (asked [7, 0, 0] heldPart)) with | .next t => t.part | _ => heldPart
    (asked [7, 0, 0] heldPart).serves .release (ask [7, 0, 0]) ∧ heldPart.arbiter = Arbiter.empty ∧
    heldPart.power.deferral = false ∧ t.channels.lampNodes.length = 1 ∧ (t.port .front).state = .up ∧
    (t.port .rear).state = .down ∧ ∀ p, ((heldPart.ownQ p).filter fun x => !x.isLampCommand).length ≤ 2 :=
  ⟨serves_of (by decide +kernel), by decide +kernel, rfl, by decide +kernel, by decide +kernel, by decide +kernel,
   fun p => by cases p <;> decide +kernel⟩

theorem witness_Release :
    (asked [7, 0, 0] (modePart .held)).serves .release (ask [7, 0, 0]) ∧ (modePart .held).mode = .held ∧
    (modePart .held).mgmt.commit = none ∧ (modePart .held).power.deferral = false ∧
    (asked [7, 0, 0] upPart).serves .release (ask [7, 0, 0]) ∧
    (asked [7, 0, 0] (committing (modePart .held))).serves .release (ask [7, 0, 0]) :=
  ⟨serves_of (by decide), rfl, rfl, rfl, serves_of (by decide), serves_of (by decide)⟩

theorem witness_Commit :
    (asked [8, 0, 0] upPart).serves .commit (ask [8, 0, 0]) ∧ upPart.mgmt.commit = none ∧ upPart.mgmt.sleep = none ∧
    (asked [8, 0, 0] (committing upPart)).serves .commit (ask [8, 0, 0]) ∧ (committing upPart).on = true ∧
    (committing upPart).mgmt.commit = some (ask [8, 0, 0]).request :=
  ⟨serves_of (by decide +kernel), rfl, rfl, serves_of (by decide +kernel), rfl, rfl⟩

theorem witness_Sleep :
    (asked [9, 0, 0] (modePart .standing)).serves .sleep (ask [9, 0, 0]) ∧ (asked [9, 0, 0] (modePart .standing)).calm ∧
    (takeEntry (asked [9, 0, 0] (modePart .standing))).mayEnterDormant = true ∧
    (asked [9, 0, 0] ((modePart .standing).setOwnQ .front [ownOf .notice])).serves .sleep (ask [9, 0, 0]) ∧
    (takeEntry (asked [9, 0, 0] ((modePart .standing).setOwnQ .front [ownOf .notice]))).mayEnterDormant = false ∧
    (asked [9, 0, 0] upPart).serves .sleep (ask [9, 0, 0]) :=
  ⟨serves_of (by decide), ⟨rfl, by decide⟩, by decide, serves_of (by decide), by decide, serves_of (by decide)⟩

/-- The idle interval has run out and a NOTICE holds up DORMANT entry. -/
def deferringPart : Part :=
  let p := (modePart .standing).setOwnQ .front [ownOf .notice]
  { p with power := { p.power with deferral := true } }

theorem witness_SleepRides : (asked [9, 0, 0] deferringPart).serves .sleep (ask [9, 0, 0]) ∧
    deferringPart.mode = .standing ∧ deferringPart.lamps.demandFlag = false ∧ deferringPart.mgmt.commit = none ∧
    deferringPart.mgmt.sleep = none ∧ deferringPart.power.deferral = true ∧
    (∀ x ∈ levelCauses (asked [9, 0, 0] deferringPart), (asked [9, 0, 0] deferringPart).active x.1 = x.2) ∧
    (takeEntry (asked [9, 0, 0] deferringPart)).mayEnterDormant = false :=
  ⟨serves_of (by decide), by decide, by decide, by decide, by decide, by decide, by decide, by decide⟩

/-- ASSIGN of a number, by a positional frame. -/
def assign (n : Byte) : RxEntry := entry 0 9 0x51 [10, 0, 0, n]

theorem witness_Assign : (∀ n ∈ [0#8, 41, 62, 63, 40, 12], (withEntryOf (assign n) nodesPart).serves .assign (assign n)) ∧
    (∃ e, nodesPart.node 12 = some e ∧ e.age < 30) ∧ (withEntryOf (assign 41) (committing upPart)).serves .assign (assign 41) :=
  ⟨fun n hn => serves_of (by revert n; decide), ⟨_, rfl, by decide⟩, serves_of (by decide)⟩

theorem witness_Reframe : (∀ n ∈ [0#8, 1, 2], (asked [11, 0, 0, n] upPart).serves .reframe (ask [11, 0, 0, n])) ∧
    (upPart.port .front).rx.phase = .idle ∧
    (asked [11, 0, 0, 0] (receiving .body [] none upPart)).serves .reframe (ask [11, 0, 0, 0]) :=
  ⟨fun n hn => serves_of (by revert n; decide), rfl, serves_of (by decide)⟩

theorem witness_Clear : (asked [12, 0, 0, 8, 16] upPart).serves .clear (ask [12, 0, 0, 8, 16]) ∧
    (asked [12, 0, 0, 8, 16] upPart).calm ∧ (asked [13, 0, 0] upPart).serves .clearCounters (ask [13, 0, 0]) :=
  ⟨serves_of (by decide), ⟨rfl, by decide⟩, serves_of (by decide)⟩

/-! ### Outputs -/

/-- A lit flashing lamp with a sample due. -/
def flashPart (st : FlasherState) : Part :=
  let p := lampPart .flash
  { p with
    channels := { p.channels with flashSample := some 0 }
    lamps := { p.lamps with flasher := { state := st, rate := .normal, timer := some 0, faultSeen := true } } }

theorem witness_Samples : (lampPart .steady).on = true ∧ (lampPart .steady).power.deferral = false ∧
    (lampPart .steady).stalls 0 = false ∧ (lampPart .steady).mode = .running ∧ (lampPart .steady).lit (lampChan 0) = true ∧
    (flashPart .onPhase).on = true ∧ (flashPart .onPhase).channels.flashSample ≠ none ∧
    (flashPart .onPhase).lit (lampChan 0) = true ∧ (lampPart .steady).nominal (lampChan 0) = 50 := by decide

theorem witness_Overloads : (lampPart .steady).on = true ∧ (lampPart .steady).lit (lampChan 0) = true ∧
    ((lampPart .steady).chan (lampChan 0)).overload ≠ none ∧
    aboveLampLevel ((lampPart .steady).nominal (lampChan 0)) 7500 = false ∧
    aboveLampLevel ((lampPart .steady).nominal (lampChan 0)) 7501 = true := by decide

/-- Channel 0 in FAULT with its retry timer at its end. -/
def faultPart (limit : Nat) : Part :=
  { upPart with
    channels := { upPart.channels with
      chans := put upPart.channels.chans 0 { Chan.off with demand := .steady, state := .fault, retryTimer := some 0 } }
    arbiter := { upPart.arbiter with limit := limit } }

theorem witness_Retry : ∀ limit ∈ [49, 50], (faultPart limit).on = true ∧ lampType 0 = true ∧
    ((faultPart limit).chan 0).state = .fault ∧ ((faultPart limit).chan 0).retryTimer ≠ none ∧
    (faultPart limit).grant 0 = 0 ∧ (faultPart limit).claimOf 0 = none ∧ (faultPart limit).arbiter.claims = [] := by decide

/-- Remote channel 17 in FAULT, its lamp node away or not and its refresh timer stopped. -/
def remoteFault (reachable : Bool) : Part :=
  let p := statusPart []
  { p with channels :=
    { chans := put p.channels.chans 17 { Chan.off with demand := .steady, state := .fault, retryTimer := some 0 }
      lampNodes := [{ LampNode.unused with node := 20, reachable := reachable }]
      flashSample := none } }

theorem witness_RetryRemote : ∀ b ∈ [false, true], (remoteFault b).on = true ∧ lampType 17 = true ∧
    ((remoteFault b).chan 17).state = .fault ∧ ((remoteFault b).chan 17).retryTimer ≠ none ∧
    (remoteFault b).grant 17 = 0 ∧ (remoteFault b).claimOf 17 = none ∧ 0 < (remoteFault b).nominal 17 ∧
    ((remoteFault b).lampNode 20).isSome = true := by decide

theorem witness_Refresh : (statusPart []).on = true ∧ (statusPart []).mode ≠ .held ∧
    ((statusPart []).channels.lampNodes[0]?).isSome = true ∧
    (statusPart []).lampNode 20 = (statusPart []).channels.lampNodes[0]? ∧ (statusPart []).nodeInUse 20 = true ∧
    (((statusPart []).ownQ .front).length < 8 ∧ ((statusPart []).ownQ .rear).length < 8) ∧
    (∃ x ∈ List.replicate 8 ({ dest := 20, source := 40, body := .lampCommand 0 0 100 } : OwnEntry),
      x.isLampCommand = true ∧ x.dest = 20) := by decide +kernel

/-- A lit steady lamp with an overload running, behind an ON phase. -/
def steadyPhasePart : Part := { lampPart .steady with lamps := (flashPart .onPhase).lamps }

theorem witness_OffPhaseEdge : ((flashPart .onPhase).chan (lampChan 0)).demand = .flash ∧
    ((flashPart .onPhase).chan (lampChan 0)).overload = some 20 ∧ steadyPhasePart.on = true ∧
    steadyPhasePart.lamps.flasher.timer ≠ none ∧ steadyPhasePart.lamps.flasher.state = .onPhase ∧
    (steadyPhasePart.chan (lampChan 0)).demand = .steady ∧ steadyPhasePart.lit (lampChan 0) = true := by decide +kernel

theorem witness_FlasherEdges : ∀ st ∈ [FlasherState.onPhase, .offPhase], (flashPart st).on = true ∧
    (flashPart st).lamps.flasher.timer ≠ none ∧ (flashPart st).lamps.flasher.state = st := by decide

/-- RUN has fallen and its debounce is over. -/
def fallingPart : Part :=
  { upPart with power := { upPart.power with run := { raw := false, level := true, timer := some 0 } } }

theorem witness_Demands : fallingPart.on = true ∧ fallingPart.mode = .running ∧ (fallingPart.power.line .run).timer ≠ none ∧
    fallingPart.ignition = .run ∧ ignitionOf true false false = .acc := by decide

theorem witness_LimitRow : upPart.limitOk ∧ (modePart .standing).on = true ∧ ∃ t, step (stateOf upPart) = .next t :=
  ⟨fun _ => ⟨fun _ _ _ => rfl, fun _ _ h => absurd h (by decide), fun _ h => absurd h (by decide),
     fun _ h => absurd h (by decide), fun h => absurd h (by decide), fun h => absurd rfl h⟩, by decide, _, rfl⟩

theorem witness_Sheds : 49 < queuePart.arbiter.limit ∧ queuePart.budgetOk ∧ queuePart.arbiter.order.Nodup ∧
    queuePart.claimsOk ∧ ∀ ch ∈ queuePart.arbiter.order, 0 < queuePart.grant ch :=
  ⟨by decide +kernel, ⟨by decide +kernel, by decide +kernel⟩, by decide +kernel, queuePart_claimsOk, by decide +kernel⟩

/-- A LOST gauge and a lamp that hold grants. -/
def lostGaugePart : Part :=
  let p := { lampPart .steady with gauges := put upPart.gauges 0 { restGauge with state := .lost } }
  { p with arbiter := { p.arbiter with grants := put p.arbiter.grants (gaugeChan 0) 10, order := [0, gaugeChan 0] } }

theorem witness_ShedGauge : 59 < lostGaugePart.arbiter.limit ∧ lostGaugePart.budgetOk ∧ lostGaugePart.claimsOk ∧
    (setLimit 59 lostGaugePart).grant (gaugeChan 0) = 0 ∧ (setLimit 59 lostGaugePart).grant 0 = 50 ∧
    (setLimit 49 lostGaugePart).grant 0 = 0 :=
  ⟨by decide +kernel, ⟨by decide +kernel, by decide +kernel⟩, by unfold Part.claimsOk inClaimOrder; decide +kernel, by decide +kernel, by decide +kernel,
   by decide +kernel⟩

theorem witness_Joins :
    ((lampPart .steady).claimOf 4 = none ∧ (lampPart .steady).arbiter.claims = [] ∧
      (lampPart .steady).committed + 20 ≤ (lampPart .steady).arbiter.limit) ∧
    (queuePart.claimOf (gaugeChan 0) = none ∧ queuePart.classOf (gaugeChan 0) = .gauge ∧
      queuePart.arbiter.claims.map (·.key) = [0, 1, 4, 5] ∧
      Claim.key { chan := gaugeChan 0, amount := 0, cls := .gauge, shed := false } = 3 ∧
      queuePart.arbiter.limit < queuePart.committed + 20) ∧
    queuePart.arbiter.limit < 70 := by decide +kernel

/-- A fan on its way to 40 %, of 10.0 A nominal, with a grant. -/
def rampPart (grant limit grain : Nat) : Part :=
  let p := fanPart { Fan.stopped with state := .ramping, target := 40, duty := 10, ramp := some 0 }
  let q := p.setTables { p.tables with fan := { p.tables.fan with nominal := 100, grain := grain } }
  { q with arbiter := { q.arbiter with
      limit := limit, grants := put q.arbiter.grants fanChan grant, order := [fanChan] } }

theorem witness_FanRamp : ∀ x ∈ [rampPart 20 300 255, rampPart 10 40 255, rampPart 10 39 255, rampPart 10 20 10],
    x.on = true ∧ x.fan.state = .ramping ∧ x.fan.ramp ≠ none ∧ x.claimOf fanChan = none ∧ x.arbiter.claims = [] := by decide

/-- A fan of 10.0 A in a state, its switch at a position, under a limit. -/
def switchedFan (f : Fan) (position grant limit : Nat) (claims : List Claim) : Part :=
  let p := (rampPart grant limit 255).setFan f
  { p with
    inputs := put p.inputs 0 { Input.cleared with value := position, fresh := true }
    arbiter := { p.arbiter with claims := claims } }

/-- A claim of the fan. -/
def fanClaimOf (amount : Nat) (shed : Bool) : Claim := { chan := fanChan, amount := amount, cls := .comfort, shed := shed }

/-- A fan in a state with a duty and a target. -/
def fanAt (st : FanState) (duty target : Nat) : Fan := { Fan.stopped with state := st, duty := duty, target := target }

theorem witness_FanSelection :
    (∀ x ∈ [(switchedFan Fan.stopped 1 0 300 [], 40), (switchedFan Fan.stopped 1 0 3 [], 40),
        (switchedFan (fanAt .waiting 0 40) 2 0 3 [fanClaimOf 40 true], 70), (switchedFan (fanAt .waiting 0 40) 0 0 3 [], 0),
        (switchedFan (fanAt .ramping 50 70) 1 60 300 [], 40), (switchedFan (fanAt .ramping 40 70) 1 60 300 [], 40),
        (switchedFan (fanAt .ramping 20 40) 2 20 300 [], 70),
        (switchedFan (fanAt .ramping 20 40) 2 20 20 [fanClaimOf 20 false], 70), (switchedFan (fanAt .running 40 40) 2 40 300 [], 70),
        (switchedFan (fanAt .running 70 70) 0 70 300 [], 0), (switchedFan (fanAt .stallWait 0 40) 2 0 300 [], 70),
        (switchedFan (fanAt .stallWait 0 40) 0 0 300 [], 0), (switchedFan (fanAt .latched 0 40) 2 0 300 [], 70)],
      x.1.mode = .running ∧ x.1.ignition = .run ∧ x.1.fanPermitted = true ∧ x.1.fanTarget = x.2 ∧ x.2 ≠ x.1.fan.target) ∧
    (switchedFan (fanAt .latched 0 40) 0 0 300 []).fanPosition = 0 ∧ (modePart .standing).ignition = .off ∧
    (switchedFan (fanAt .running 40 40) 1 40 300 []).fanTarget = 40 ∧ (modePart .held).mode = .held := by decide +kernel

theorem witness_FanWrite : ∃ t, writeEntry 7 0 (entryBytes upPart 7 0) upPart = .ok t := ⟨_, rfl⟩

theorem witness_FanFaults :
    (let p := fanPart { Fan.stopped with state := .running, duty := 40, target := 40, stallCount := 20, overload := some 0 }
     p.on = true ∧ p.fan.state = .running ∧ 20 ≤ p.fan.stallCount ∧ 4 < p.tables.fan.stallThreshold ∧ 0 < p.fan.duty ∧
     p.fan.overload ≠ none ∧ p.power.deferral = false) ∧
    (∀ n ∈ [2, 3], (fanPart { Fan.stopped with state := .stallWait, stallWait := some 0, retry := n }).fan.stallWait ≠ none) := by
  decide

theorem witness_Curve :
    let ps := upPart.curvePoints 0
    ps.Pairwise (fun a b => a.reading < b.reading) ∧ ps.length = 8 ∧ (ps.map (·.reading)).head? = some 0 ∧
    (ps.map (·.reading)).getLast? = some 1023 := by decide

theorem witness_GaugeTick : ∀ r ∈ [{ restGauge with state := .tracking },
      { restGauge with state := .tracking, store := [.reading 1023] },
      { restGauge with state := .repeating, store := [.open_, .open_, .reading 0] },
      { restGauge with state := .parking, rampLeft := 2 }, { restGauge with state := .parking, rampLeft := 15 },
      { restGauge with state := .lost }, { restGauge with state := .settling }, restGauge],
    (gaugePart r).on = true ∧ (gaugePart r).power.deferral = false ∧ (gaugePart r).gauge 0 = r ∧ 0 < (gaugePart r).supply ∧
    (gaugePart r).supply = 1400 := by decide

/-- Gauge G0 with node 12 as its sender. -/
def senderGaugePart (r : Gauge) : Part :=
  let p := gaugePart r
  p.setTables { p.tables with gauges := put p.tables.gauges 0 (senderCfg .coil) }

theorem witness_GaugeTickSlips : let p := senderGaugePart { restGauge with state := .tracking }
    p.on = true ∧ p.power.deferral = false ∧ (p.gaugeCfg 0).source = .sender ∧ (p.gauge 0).state = .tracking ∧
    (p.gauge 0).store = [] ∧ p.active .gaugeSlip = false := by decide

theorem witness_ParkRampEnd :
    let p := gaugePart { restGauge with state := .parking, rampLeft := 1 }
    p.on = true ∧ p.power.deferral = false ∧ (p.gauge 0).state = .parking ∧ (p.gauge 0).rampLeft = 1 := by decide

/-- ACC has risen in a mode and its debounce is over. -/
def risingPart (m : Mode) : Part :=
  let p := modePart m
  { p with
    power := { p.power with acc := { raw := true, level := false, timer := some 0 }, deferral := m == .standing }
    mgmt := { p.mgmt with sleep := if m = .standing then some (ask [9, 0, 0]).request else none } }

theorem witness_Ignition : ∀ m ∈ [Mode.standing, .dormant, .quiet, .held], (risingPart m).on = true ∧
    (risingPart m).mode = m ∧ ((risingPart m).power.line .acc).timer ≠ none ∧ (risingPart m).ignition = .off ∧
    ignitionOf true false false ≠ .off := by decide

theorem witness_Supply :
    (let p := Part.powerOn .held .dark false false false none (tab fun _ => 550) resetStore 0 false true
     p.power.stage = .held ∧ (550 + 550 + 550 + 551 + 2) / 4 = 550 ∧ (550 + 550 + 550 + 552 + 2) / 4 = 551) ∧
    upPart.power.stage = .running ∧ State.reset.part.power.stage = .released false := by decide

/-- The part after its load stage. -/
def loadedPart (valid : Bool) : Part :=
  { State.reset.part with
    power := { Power.powerOn (.released valid) false false false none resetSamples with mode := .standing } }

theorem witness_PowerOn : State.reset.part.power.stage = .released false ∧
    State.reset.part.mgmt.store.state ≠ .valid ∧
    ({ resetStore with state := .valid } : Store).state = .valid ∧
    (loadedPart true).power.stage = .released true ∧ (loadedPart true).power.linesSettled = true ∧
    (loadedPart true).power.deferral = false := by decide

/-- A part in STANDING whose interval timer or deferral is at its end. -/
def idlePart (i : Interval) (deferral : Bool) : Part :=
  { modePart .standing with power := { (modePart .standing).power with interval := i, deferral := deferral } }

theorem witness_PowerTimers : (idlePart (.settling 0) false).on = true ∧ (idlePart (.settling 0) false).power.deferral = false ∧
    (idlePart .none true).power.deferral = true ∧ (idlePart .none true).mode = .standing ∧
    (idlePart .none true).mayEnterDormant = true ∧ (idlePart (.idle 0) false).mayEnterDormant = true ∧
    ((idlePart (.idle 0) false).setOwnQ .front [ownOf .notice]).mayEnterDormant = false ∧
    (modePart .dormant).mode = .dormant ∧
    ∀ p ∈ [idlePart .none true, modePart .dormant], p.arbiter.claims = [] ∧ p.committed = 0 := by decide
theorem witness_IdleExpiry_calm : (idlePart (.idle 0) false).calm := ⟨rfl, by decide⟩

theorem witness_OutputFrame : Instr.isOutput .gaugeTick = true ∧ ∃ t, exec .gaugeTick (stateOf upPart) =
    .next { stateOf upPart with part := t } := ⟨rfl, _, rfl⟩
theorem witness_OnlyFrame : (∀ v, Instr.read ≠ .supplySample v) ∧ ∃ t, exec .read (stateOf upPart) =
    .next { stateOf upPart with part := t } := ⟨fun _ h => (by cases h), _, rfl⟩

/-! ### Single commands -/

/-- The part after a command. -/
def after (c : Instr) (p : Part) : Part :=
  match exec c (stateOf p) with
  | .next s => s.part
  | .fault _ | .refused _ => p

theorem test_program_from_reset :
    let p := after .powerOnStart (after (.ignitionDebounceExpiry .start) (after (.ignitionDebounceExpiry .run)
      (after (.ignitionDebounceExpiry .acc) (after .nvLoad State.reset.part))))
    p.on = true ∧ p.mode = .standing ∧ p.arbiter.limit = 300 ∧ p.active .nvFault = true := by decide +kernel

theorem test_start_symbol : ((after (.startSymbol .front) onPart).port .front).state = .seeking := by decide +kernel
theorem test_data_symbol : ((after (.dataSymbol .front 9) (headerPart 7 0 true)).port .rear).tx =
    .sending { header := [7, 0, 5, 0x19], payload := [], origin := .cutThrough .front, complete := false,
               abort := none } := by decide +kernel
theorem test_end_symbol : ((after (.endSymbol .front) (goodPart .reserved .none goodBytes)).rxQ .front).map (·.payload)
    = [[1, 2]] := by decide +kernel
theorem test_end_symbol_up : ((after (.endSymbol .front) (countPart .seeking 1 0 0 .sum8 goodBytes)).port .front).state
    = .up := by decide +kernel
theorem test_alternate_mode :
    ((after (.endSymbol .front) (countPart .seeking 0 3 3 .check16 goodBytes)).port .front).mode = .sum8 := by decide +kernel
theorem test_abort_symbol : ((after (.abortSymbol .front) (receiving .body [] none upPart)).port .front).counters.aborted
    = 1 := by decide +kernel
theorem test_fill_symbol : ((after (.fillSymbol .front) (receiving .header [] none upPart)).port .front).counters.fragments
    = 1 := by decide +kernel
theorem test_port_quiet : (after (.portQuiet .front) upPart).active .frontDown = true := by decide +kernel
theorem test_line_activity : (after (.lineActivity .rear) (modePart .quiet)).mode = .dormant := by decide +kernel
theorem test_transmit_start : ((after (.transmitStart .front) (waitingPart [ownOf (.reply [])] [relayOf] [])).port .front).tx
    = .sending { header := relayOf.header, payload := [1], origin := .relayed .rear, complete := true, abort := none } := by decide +kernel
theorem test_transmit_end : ((after (.transmitEnd .front) (sendingPart .sum8 (frameOf .notice true none))).port .front).lastSent
    = some { bytes := goodBytes, aborted := false } := by decide +kernel
theorem test_relay_age_out : ((after (.relayAgeOut .rear) (upPart.setRelayQ .rear [relayOf])).port .rear).counters.relayDrops
    = 1 := by decide +kernel
theorem test_node_age : ((after .nodeAgeStep nodesPart).node 12).map (·.state) = some .silent := by decide +kernel
theorem test_node_losses :
    let t := after .nodeAgeStep (leavingPart .on .coil { restGauge with state := .tracking, lost := .hold })
    (t.chan 17).state = .unreachable ∧ (t.gauge 0).state = .lost ∧ t.active .senderLost = true := by decide +kernel
/-- The loss of a lamp node releases its grant and runs no pass of its own: a claim that waits is left waiting (R73). -/
theorem test_loss_runs_no_pass :
    let q := leavingPart .on .coil restGauge
    let r := { q with arbiter := { q.arbiter with
      limit := 20, grants := put q.arbiter.grants 17 20, order := [17]
      claims := [{ chan := 18, amount := 20, cls := .safety, shed := false }] } }
    let t := loseNode r 20
    t.committed = 0 ∧ t.arbiter.claims.map (·.chan) = [18] := by decide +kernel
theorem test_node_returns :
    let t := after (.endSymbol .front) (returnPart { restGauge with state := .lost, lostMark := true })
    (t.chan 17).state = .on ∧ (t.gauge 0).state = .repeating ∧ (t.gauge 0).lostMark = false := by decide +kernel
theorem test_ninth_own_frame : let q := List.replicate 8 (ownOf (.reply []))
    enqueue (ownOf .notice) q = q ∧ (enqueue (ownOf .notice) q.tail).length = 8 := by decide +kernel
theorem test_switch_state : (after .switchState (switchPart { Input.cleared with fresh := true })).input 3 =
    { Input.cleared with fresh := true, resync := false, value := 2 } := by decide +kernel
theorem test_sender_report : ((after .senderReport (senderPart 8 [3, 255])).gauge 0).store.length = 5 := by decide +kernel
theorem test_lamp_status : ((after .lampStatus (statusPart [3, 0, 5, 220])).chan 17).state = .fault := by decide +kernel
/-- A SHORT that clears the last bulb_out and a later OPEN of one LAMP_STATUS change BULB_OUT twice. -/
theorem test_bulb_out_changes_twice :
    let q := statusPart [11, 0, 5, 220]
    let p := q.setTables { q.tables with channels := put q.tables.channels 18 { remoteCfg 20 with output := 1 } }
    let c := { Chan.off with demand := .steady, state := .on }
    let r := { p with channels := { p.channels with
      chans := put (put p.channels.chans 17 { c with bulbOut := true }) 18 c } }
    let t := after .lampStatus (r.markActive .bulbOut true)
    (t.chan 17).bulbOut = false ∧ (t.chan 18).bulbOut = true ∧ t.active .bulbOut = true ∧ t.changed .bulbOut = true := by
  decide +kernel
theorem test_oldest_lost_evicted :
    let t := after (.endSymbol .front) ((goodPart .none .none goodBytes).setNodes evictNodes)
    (t.node 12).isSome = true ∧ t.node 41 = none ∧ (t.node 62).isSome = true ∧ t.relay.nodes.length = 24 := by
  decide +kernel
theorem test_unknown_kind :
    ((after .unknownKind (withEntryOf (entry 40 9 0x77 []) upPart)).port .front).counters.unknownKind = 1 := by decide +kernel
theorem test_read : (after .read (asked [1, 23, 0] upPart)).ownQ .front = [ownOf
    (.reply [0x01, 23, 0, 0x0B, 0x17, 0x0C, 0x28, 0x01, 2, 40, 0])] := by decide +kernel
theorem test_read_bad_index : (after .read (asked [1, 9, 32] upPart)).ownQ .front =
    [{ dest := 9, source := 40, body := .reply [0x51, 9, 32] }] := by decide +kernel
theorem test_write : (after .write (asked [4, 3, 3, 62] upPart)).tables.adopt.get 3 = 62 := by decide +kernel
theorem test_write_next : (after .writeNext (asked [5, 0, 0, 9, 10] (setWindow 3 2 upPart))).mgmt.windowIndex = 4 := by decide +kernel
theorem test_hold_in_held_behind_commit :
    ((after .hold (asked [6, 0, 0] (committing (modePart .held)))).mgmt.slot).isSome = true := by decide +kernel
theorem test_hold : (after .hold (asked [6, 0, 0] (lampPart .steady))).committed = 0 := by decide +kernel
theorem test_release : (after .release (asked [7, 0, 0] (modePart .held))).mode = .standing := by decide +kernel
theorem test_release_commands : let t := after .release (asked [7, 0, 0] heldPart)
    t.ownQ .rear = [] ∧ t.ownQ .front = [ownOf .notice, { dest := 20, source := 40, body := .lampCommand 0 0 100 },
      ownOf (.reply [0x07, 0, 0])] := by decide +kernel
theorem test_commit : (after .commit (asked [8, 0, 0] upPart)).mgmt.store.state = .writing := by decide +kernel
theorem test_commit_complete : (after (.commitComplete false) (committing upPart)).active .nvFault = true := by decide +kernel
theorem test_sleep : (after .sleep (asked [9, 0, 0] (modePart .standing))).mode = .dormant := by decide +kernel
theorem test_sleep_rides : let t := after .sleep (asked [9, 0, 0] deferringPart)
    t.mgmt.sleep = some (ask [9, 0, 0]).request ∧ t.power.deferral = true ∧ t.mode = .standing := by decide +kernel
theorem test_assign : (after .assign (withEntryOf (assign 41) nodesPart)).mgmt.node = 41 := by decide +kernel
theorem test_transitions_in_one_event :
    (let t := after (.endSymbol .front) (reframing (countPart .seeking 1 0 0 .sum8 goodBytes))
     (t.port .front).state = .seeking ∧ t.active .frontDown = true ∧ t.changed .frontDown = true) ∧
    (let t := after (.endSymbol .front) (reframing (countPart .seeking 0 3 3 .check16 goodBytes))
     t.active .legacySegment = false ∧ t.changed .legacySegment = true) := by decide +kernel
theorem test_reframe : ((after .reframe (asked [11, 0, 0, 1] upPart)).port .rear).state = .seeking := by decide +kernel
theorem test_sample_clock : ((after (.sampleClock (tab fun _ => 24) 0) (lampPart .steady)).chan 0).bulbOut = true ∧
    ((after (.sampleClock (tab fun _ => 25) 0) (lampPart .steady)).chan 0).bulbOut = false := by decide +kernel
theorem test_flash_sample : (after (.flashSample (tab fun _ => 0)) (flashPart .onPhase)).channels.flashSample = none := by decide +kernel
theorem test_overload : ((after (.overload 0) (lampPart .steady)).chan 0).retryTimer = some 1000 := by decide +kernel
theorem test_overload_level : let p := lampPart .steady
    ((after (.overloadLevelCrossing 0 7501) p).chan 0).overload = some 20 ∧
    ((after (.overloadLevelCrossing 0 7500) p).chan 0).overload = none := by decide +kernel
theorem test_fan_overload_level :
    let q := rampPart 40 300 255
    let p := { q with fan := { q.fan with duty := 40 } }
    (after (.fanOverloadLevelCrossing 6001) p).fan.overload = some 50 ∧
    (after (.fanOverloadLevelCrossing 6000) p).fan.overload = none := by decide +kernel
theorem test_short : (after (.shortTrip 0) (lampPart .steady)).grant 0 = 0 := by decide +kernel
theorem test_retry : ((after (.retryTimerExpiry 0) (faultPart 50)).chan 0).state = .on ∧
    ((after (.retryTimerExpiry 0) (faultPart 49)).chan 0).state = .waiting := by decide +kernel
theorem test_refresh_starts : ((after (.retryTimerExpiry 17) (remoteFault false)).lampNode 20).map (·.refresh)
    = some (some 200) ∧ ((after (.retryTimerExpiry 17) (remoteFault false)).chan 17).state = .unreachable := by decide +kernel
theorem test_refresh : (after (.refreshTimerExpiry 0) (statusPart [])).ownQ .rear =
    [{ dest := 20, source := 40, body := .lampCommand 1 0 100 }] := by decide +kernel
theorem test_on_edge : (after .onPhaseEdge (flashPart .offPhase)).lamps.flasher =
    { state := .onPhase, rate := .fast, timer := some 190, faultSeen := false } := by decide +kernel
theorem test_off_edge : let t := after .offPhaseEdge (flashPart .onPhase)
    t.lit 0 = false ∧ (t.chan 0).overload = none := by decide +kernel
theorem test_ramp_step : (after .rampStep (rampPart 20 300 255)).fan.duty = 20 ∧
    (after .rampStep (rampPart 10 40 255)).grant fanChan = 40 ∧ (after .rampStep (rampPart 10 39 255)).fan.ramp = none ∧
    (after .rampStep (rampPart 10 20 10)).fan.duty = 20 := by decide +kernel
theorem test_fan_selection :
    (selectFan (switchedFan Fan.stopped 1 0 300 [])).fan.duty = 10 ∧
    (selectFan (switchedFan (fanAt .waiting 0 40) 2 0 3 [fanClaimOf 40 true])).arbiter.claims = [fanClaimOf 70 true] ∧
    (selectFan (switchedFan (fanAt .ramping 50 70) 1 60 300 [])).grant fanChan = 40 ∧
    (selectFan (switchedFan (fanAt .latched 0 40) 0 0 300 [])).fan = Fan.stopped := by decide +kernel
theorem test_stall_wait : (after .stallWaitExpiry
    (fanPart { Fan.stopped with state := .stallWait, stallWait := some 0, retry := 3 })).fan.state = .latched := by decide +kernel
theorem test_gauge_tick : ((after .gaugeTick (gaugePart { restGauge with state := .tracking })).gauge 0).output
    = 100 := by decide +kernel
theorem test_repeat_slip : let t := after .gaugeTick (senderGaugePart { restGauge with state := .tracking })
    (t.gauge 0).state = .repeating ∧ t.active .gaugeSlip = true ∧ t.changed .gaugeSlip = true := by decide +kernel
theorem test_gauge_figures_at_tick :
    let p := upPart.setTables { upPart.tables with
      gauges := put upPart.tables.gauges 0 { upPart.gaugeCfg 0 with nominal := 0 } }
    let t := after .write (asked ([4, 8, 0] ++ encodeGauge { p.gaugeCfg 0 with parkDrive := 100, lost := .hold }) p)
    (t.gaugeCfg 0).parkDrive = 100 ∧ (t.gauge 0).drive = 0 ∧ (t.gauge 0).lost = .park ∧
    ((after .gaugeTick t).gauge 0).drive = 100 ∧ ((after .gaugeTick t).gauge 0).lost = .hold := by decide +kernel
theorem test_park_ramp_end : ((after (.parkRampEnd 0)
    (gaugePart { restGauge with state := .parking, rampLeft := 1, drive := 9 })).gauge 0).state = .parked := by decide +kernel
theorem test_ignition : (after (.ignitionDebounceExpiry .run) fallingPart).ignition = .acc ∧
    (after (.ignitionDebounceExpiry .acc) (risingPart .quiet)).mode = .running := by decide +kernel
theorem test_brown_out : (after (.supplySample 0) { upPart with
    power := { upPart.power with samples := tab fun _ => 600 } }).power.stage = .held := by decide +kernel
theorem test_running_left_clears_stall_count :
    let q := rampPart 40 40 255
    let p := { q with fan := { q.fan with state := .running, duty := 40, target := 40, stallCount := 7 } }
    (setTarget 50 p).fan.state = .ramping ∧ (setTarget 50 p).fan.stallCount = 0 ∧
    (setTarget 40 (setTarget 50 p)).fan.stallCount = 0 := by decide +kernel
theorem test_shed_changes_twice :
    let q := lampPart .steady
    let p := { q with
      channels := { q.channels with chans := put q.channels.chans 1 { Chan.off with demand := .steady, state := .shed } }
      power := { q.power with charging := .discharging }, limitFirst := false }
    let r := (p.markActive .shedActive true).setTables { p.tables with
      power := { p.tables.power with runDis := 40 }, rules := tab fun i =>
        if i = 0 then { limpRule 0 with mask := 0b1111 } else { limpRule i with enabled := false } }
    let t := handMode .running r
    (t.chan 1).state = .off ∧ (t.chan 0).state = .shed ∧ t.active .shedActive = true ∧ t.changed .shedActive = true := by
  decide +kernel
theorem test_dormant_rests :
    let p := idlePart (.idle 0) false
    let q := { p with channels := { p.channels with lampNodes := [{ LampNode.unused with node := 20, refresh := some 5 }] } }
    (after .idleExpiry q).mode = .dormant ∧ ((after .idleExpiry q).lampNode 20).map (·.refresh) = some none := by decide +kernel
theorem test_idle_expiry : (after .idleExpiry (idlePart (.idle 0) false)).mode = .dormant := by decide +kernel
theorem test_quiet_entry : (after .quietEntry { modePart .dormant with
    ports := onPart.ports, power := { (modePart .dormant).power with quiet := some 0 } }).mode = .quiet := by decide +kernel
theorem test_empty_queue : (match step (stateOf upPart) with | .next s => (s.part.port .front).quiet | _ => none)
    = some 19 := by decide +kernel

end Sys2Proof.Machine
end

section
/-! Support for the statements about the link: what the reactions of the blocks leave of the ports and what they do
to the condition flags. `Reaction` of Laws/ takes a DARK transmitter as FILLING and leaves the flags open; here is the
rest. -/

namespace Sys2Proof.Machine

/-! ### The relations -/

/-- The condition that a port is not UP (01: R10). -/
def downCond : Port → Cond
  | .front => .frontDown
  | .rear => .rearDown

/-- What every reaction of an event does to flags and own transmit queues: no changed flag is lost and no active flag
changes unmarked, FRONT_DOWN and REAR_DOWN stay or come to stand as the port, a DOWN port's queue takes nothing. -/
structure Follows (s t : Part) : Prop where
  state : ∀ p, (t.port p).state = (s.port p).state
  kept : ∀ c, s.changed c = true → t.changed c = true
  marked : ∀ c, t.active c ≠ s.active c → t.changed c = true
  down : ∀ p, t.active (downCond p) = s.active (downCond p) ∨ t.active (downCond p) = !s.isUp p
  mute : ∀ p, (s.port p).state = .down → t.ownQ p = s.ownQ p

/-- A reaction that also leaves the ports and the power manager as they are. -/
structure Steady (s t : Part) : Prop extends Follows s t where
  ports : t.ports = s.ports
  power : t.power = s.power

theorem isUp_of_state {s t : Part} {p : Port} (h : (t.port p).state = (s.port p).state) : t.isUp p = s.isUp p := by
  unfold Part.isUp
  rw [h]

theorem Follows.trans {s t u : Part} (h : Follows s t) (k : Follows t u) : Follows s u where
  state p := (k.state p).trans (h.state p)
  kept c hc := k.kept c (h.kept c hc)
  marked c hc := by
    by_cases e : u.active c = t.active c
    · exact k.kept c (h.marked c (e ▸ hc))
    · exact k.marked c e
  down p := by
    rcases k.down p with e | e
    · rw [e]; exact h.down p
    · rw [e, isUp_of_state (h.state p)]; exact .inr rfl
  mute p hp := (k.mute p ((h.state p).trans hp)).trans (h.mute p hp)

theorem Follows.ite {s a b : Part} {c : Prop} [Decidable c] (ha : Follows s a) (hb : Follows s b) :
    Follows s (if c then a else b) := by
  split
  · exact ha
  · exact hb

/-- An update that touches neither port states, flags nor own transmit queues. -/
theorem Follows.of_eq {s t : Part} (hp : ∀ p, (t.port p).state = (s.port p).state)
    (ha : t.mgmt.active = s.mgmt.active) (hc : t.mgmt.changed = s.mgmt.changed)
    (ho : t.relay.ownQueue = s.relay.ownQueue) : Follows s t where
  state := hp
  kept c h := by unfold Part.changed at *; rw [hc]; exact h
  marked c h := absurd (by unfold Part.active; rw [ha]) h
  down p := .inl (by unfold Part.active; rw [ha])
  mute p _ := by unfold Part.ownQ; rw [ho]

/-- An update that touches neither ports, power manager, flags nor own transmit queues. -/
theorem Steady.of_eq {s t : Part} (hp : t.ports = s.ports) (hw : t.power = s.power)
    (ha : t.mgmt.active = s.mgmt.active) (hc : t.mgmt.changed = s.mgmt.changed)
    (ho : t.relay.ownQueue = s.relay.ownQueue) : Steady s t :=
  { Follows.of_eq (fun p => by unfold Part.port; rw [hp]) ha hc ho with ports := hp, power := hw }

theorem Follows.refl (s : Part) : Follows s s := .of_eq (fun _ => rfl) rfl rfl rfl

theorem Steady.refl (s : Part) : Steady s s := .of_eq rfl rfl rfl rfl rfl

theorem Steady.trans {s t u : Part} (h : Steady s t) (k : Steady t u) : Steady s u :=
  { h.toFollows.trans k.toFollows with ports := k.ports.trans h.ports, power := k.power.trans h.power }

theorem Steady.foldl {α : Type} {f : Part → α → Part} (hf : ∀ s x, Steady s (f s x)) (xs : List α) (s : Part) :
    Steady s (xs.foldl f s) := by
  induction xs generalizing s with
  | nil => exact .refl s
  | cons x xs ih => exact (hf s x).trans (ih _)

theorem Steady.ite {s a b : Part} {c : Prop} [Decidable c] (ha : Steady s a) (hb : Steady s b) :
    Steady s (if c then a else b) := by
  split
  · exact ha
  · exact hb

/-! ### Single updates -/

theorem Steady.setChan (s : Part) (ch : Fin 25) (c : Chan) : Steady s (s.setChan ch c) := .of_eq rfl rfl rfl rfl rfl

theorem Steady.setChannels (s : Part) (c : Channels) : Steady s { s with channels := c } := .of_eq rfl rfl rfl rfl rfl

theorem Steady.onLampNode (s : Part) (n : Nat) (f : LampNode → LampNode) : Steady s (s.onLampNode n f) :=
  .of_eq rfl rfl rfl rfl rfl

theorem Steady.setArbiter (s : Part) (a : Arbiter) : Steady s (s.setArbiter a) := .of_eq rfl rfl rfl rfl rfl

theorem Steady.setLamps (s : Part) (l : Lamps) : Steady s { s with lamps := l } := .of_eq rfl rfl rfl rfl rfl

theorem Steady.setFan (s : Part) (f : Fan) : Steady s (s.setFan f) := .of_eq rfl rfl rfl rfl rfl

theorem Steady.setGauge (s : Part) (g : Fin 4) (r : Gauge) : Steady s (s.setGauge g r) := .of_eq rfl rfl rfl rfl rfl

/-! ### Own transmit queues and flags -/

theorem Steady.queueOwn (e : OwnEntry) (s : Part) (p : Port) : Steady s (queueOwn e s p) := by
  unfold Machine.queueOwn
  split
  · exact .refl s
  · rename_i up
    refine { Steady.refl s with mute := fun q hq => ?_, ports := rfl, power := rfl }
    have hne : p ≠ q := fun e => up (e ▸ hq)
    exact get_set_ne _ _ hne

theorem Steady.originate (n : Nat) (b : OwnBody) (s : Part) : Steady s (originate n b s) :=
  .foldl (fun s p => .queueOwn _ s p) _ s

theorem Steady.requestNotice (s : Part) : Steady s (requestNotice s) := .ite (.refl s) (.originate _ _ s)

theorem Steady.oweNotice (c : Cond) (s : Part) : Steady s (oweNotice c s) := by
  have owed : Steady s { s with mgmt := { s.mgmt with owed := true } } := .of_eq rfl rfl rfl rfl rfl
  exact .ite (owed.trans (.requestNotice _)) (.refl s)

theorem setCond_mute (c : Cond) (b : Bool) (s : Part) (p : Port) (hp : (s.port p).state = .down) :
    (setCond c b s).ownQ p = s.ownQ p := by
  unfold setCond
  split
  · rfl
  · simp only
    split
    · rfl
    · exact (Steady.oweNotice c _).mute p hp

/-- A condition raised or cleared (10: R176); FRONT_DOWN and REAR_DOWN only as their port stands. -/
theorem Steady.setCond (c : Cond) (b : Bool) (s : Part) (h : ∀ p, c = downCond p → b = !s.isUp p) :
    Steady s (setCond c b s) where
  state p := by unfold Part.port; rw [(FlagsOnly.setCond c b s).ports]
  kept d hd := by
    rw [setCond_changed]
    split
    · rename_i e; rw [← e, hd]; rfl
    · exact hd
  marked d hd := by
    rw [setCond_active] at hd
    rw [setCond_changed]
    split at hd
    · rename_i e
      subst e
      have ne : s.active d ≠ b := Ne.symm hd
      simp [ne]
    · exact absurd rfl hd
  down p := by
    rw [setCond_active]
    split
    · rename_i e; exact .inr (h p e.symm)
    · exact .inl rfl
  mute p := setCond_mute c b s p
  ports := (FlagsOnly.setCond c b s).ports
  power := (FlagsOnly.setCond c b s).power

theorem mem_levelCauses_down (s : Part) (p : Port) : (downCond p, !s.isUp p) ∈ levelCauses s := by
  cases p <;> simp [levelCauses, downCond]

/-- Each condition has one cause in the list, so that of FRONT_DOWN or REAR_DOWN is the port's. -/
theorem levelCauses_down (s : Part) (p : Port) (x : Cond × Bool) (hx : x ∈ levelCauses s) (h : x.1 = downCond p) :
    x.2 = !s.isUp p := by
  have once : ((levelCauses s).map Prod.fst).Nodup := by
    simp only [levelCauses, List.map_cons, List.map_nil]
    decide
  exact congrArg Prod.snd (List.inj_on_of_nodup_map once hx (mem_levelCauses_down s p) h)

theorem Steady.foldl_setCond (l : List (Cond × Bool)) (s : Part)
    (h : ∀ x ∈ l, ∀ p, x.1 = downCond p → x.2 = !s.isUp p) :
    Steady s (l.foldl (fun t x => Machine.setCond x.1 x.2 t) s) := by
  induction l generalizing s with
  | nil => exact .refl s
  | cons x l ih =>
    have head : Steady s (Machine.setCond x.1 x.2 s) := .setCond _ _ s (h x List.mem_cons_self)
    refine head.trans (ih _ fun y hy p e => ?_)
    rw [isUp_of_state (head.state p)]
    exact h y (List.mem_cons_of_mem _ hy) p e

theorem Steady.syncConds (s : Part) : Steady s (syncConds s) :=
  .ite (.foldl_setCond _ s fun x hx p => levelCauses_down s p x hx) (.refl s)

/-! ### Lights, fan and gauges at grants and sheds -/

theorem Steady.commandNode (s : Part) (n : Nat) : Steady s (commandNode s n) := by
  unfold Machine.commandNode
  split
  · exact .refl s
  · exact .ite (.refl s) ((Steady.originate _ _ s).trans (.onLampNode _ _ _))

theorem Steady.settleLights (s : Part) : Steady s (settleLights s) := by
  have start : Steady s (flashStart s) := .ite (.of_eq rfl rfl rfl rfl rfl) (.refl s)
  have masks : ∀ t : Part, Steady t (refreshMasks t) := fun t =>
    (Steady.setChannels t _).trans (.foldl (fun s n => .commandNode s n) _ _)
  exact (start.trans (.setChannels _ _)).trans (masks _)

theorem Steady.noteFault (ch : Fin 25) (s : Part) : Steady s (noteFault ch s) :=
  .ite (.of_eq rfl rfl rfl rfl rfl) (.refl s)

theorem Steady.handGrant (ch : Fin 25) (s : Part) : Steady s (handGrant ch s) := by
  have lamp : Steady s (Machine.settleLights (s.setChan ch { s.chan ch with state := .on })) :=
    (Steady.setChan s ch _).trans (.settleLights _)
  unfold Machine.handGrant
  split
  · exact lamp
  · exact lamp
  · exact .of_eq rfl rfl rfl rfl rfl
  · exact .ite (.of_eq rfl rfl rfl rfl rfl) (.refl s)

theorem Steady.handShed (ch : Fin 25) (s : Part) : Steady s (handShed ch s) := by
  have lamp : Steady s (Machine.settleLights
      (s.setChan ch { s.chan ch with state := .shed, bulbOut := false, measured := 0 })) :=
    (Steady.setChan s ch _).trans (.settleLights _)
  unfold Machine.handShed
  split
  · exact lamp
  · exact lamp
  · exact .of_eq rfl rfl rfl rfl rfl
  · unfold gaugeShed
    split <;> exact .of_eq rfl rfl rfl rfl rfl

/-! ### Budget arbiter -/

theorem Steady.giveGrant (ch : Fin 25) (amount : Nat) (s : Part) : Steady s (giveGrant ch amount s) :=
  (Steady.setArbiter s _).trans (.handGrant ch _)

theorem Steady.grantHeads (n : Nat) (s : Part) : Steady s (grantHeads n s) := by
  induction n generalizing s with
  | zero => exact .refl s
  | succ n ih =>
    unfold Machine.grantHeads
    split
    · exact .refl s
    · exact .ite (((Steady.setArbiter s _).trans (.giveGrant _ _ _)).trans (ih _)) (.refl s)

theorem Steady.grantPass (s : Part) : Steady s (grantPass s) := .grantHeads _ s

theorem Steady.passAfter {s t : Part} (old : Part) (h : Steady s t) : Steady s (passAfter old t) :=
  .ite h (h.trans (.grantPass t))

theorem Steady.makeClaim (ch : Fin 25) (amount : Nat) (s : Part) : Steady s (makeClaim ch amount s) :=
  .ite ((Steady.setArbiter s _).trans (.grantPass _))
    (.ite (.giveGrant ch amount s) ((Steady.setArbiter s _).trans (.grantPass _)))

theorem Steady.shedSome (n : Nat) (s : Part) : Steady s (shedSome n s) := by
  induction n generalizing s with
  | zero => exact .refl s
  | succ n ih =>
    unfold Machine.shedSome
    split
    · exact .refl s
    · split
      · exact .refl s
      · exact ((Steady.setArbiter s _).trans (.handShed _ _)).trans (ih _)

theorem Steady.setLimit (new : Nat) (s : Part) : Steady s (setLimit new s) := by
  have limit := Steady.setArbiter s { s.arbiter with limit := new }
  exact .ite (.refl s) (Steady.trans (.ite (limit.trans (.grantPass _)) (limit.trans (.shedSome _ _))) (.syncConds _))

/-! ### Channel manager and lamp logic -/

theorem Steady.startRefresh (ch : Fin 25) (s : Part) : Steady s (startRefresh ch s) :=
  .ite (.onLampNode s _ _) (.refl s)

theorem Steady.claimChan (ch : Fin 25) (s : Part) : Steady s (claimChan ch s) := by
  have refresh : ∀ c : Chan, Steady s (Machine.startRefresh ch (s.setChan ch c)) := fun c =>
    (Steady.setChan s ch c).trans (.startRefresh ch _)
  exact .ite (((refresh _).trans (.noteFault _ _)).trans (.settleLights _)) ((refresh _).trans (.makeClaim _ _ _))

theorem Steady.setDemand (ch : Fin 25) (d : Demand) (s : Part) : Steady s (setDemand ch d s) := by
  have off : Steady s (turnOff ch s) := 
    .passAfter s (((Steady.setChan s ch _).trans (.setArbiter _ _)).trans (.settleLights _))
  have demand := Steady.setChan s ch { s.chan ch with demand := d }
  have lights := demand.trans (.settleLights _)
  exact .ite (.refl s) (.ite off
    (.ite (.ite demand (demand.trans (.claimChan ch _))) (.ite (lights.trans (.noteFault ch _)) lights)))

theorem Steady.loseChan (s : Part) (ch : Fin 25) : Steady s (loseChan s ch) := by
  unfold Machine.loseChan
  split
  iterate 3 exact ((Steady.setChan s ch _).trans (.setArbiter _ _)).trans (.noteFault ch _)
  all_goals exact .refl s

theorem Steady.loseNode (s : Part) (n : Nat) : Steady s (loseNode s n) :=
  ((Steady.onLampNode s n _).trans (.foldl (fun s ch => .loseChan s ch) _ _)).trans (.settleLights _)

theorem Steady.regainNode (s : Part) (n : Nat) : Steady s (regainNode s n) :=
  ((Steady.onLampNode s n _).trans (.commandNode _ n)).trans
    (.foldl (fun s ch => .ite (.claimChan ch s) (.refl s)) _ _)

theorem Steady.followNodes (s : Part) : Steady s (followNodes s) :=
  (Steady.passAfter s (.foldl (fun s n => .loseNode s n) _ s)).trans (.foldl (fun s n => .regainNode s n) _ _)

theorem Steady.evaluateRules (s : Part) : Steady s (evaluateRules s) := by
  have hand : ∀ t : Part, Steady t (handResults t) := fun t => by
    have demands := Steady.foldl (f := handDemand) (fun s ch => .setDemand ch _ s) t.changedChans t
    exact .ite (.ite demands ((demands.trans (.setLamps _ _)).trans (.setChannels _ _))) (.refl t)
  exact .ite (.refl s) (((Steady.setLamps s _).trans (hand _)).trans (.setLamps _ _))

/-! ### Fan -/

theorem Steady.fanStep (s : Part) : Steady s (fanStep s) := by
  unfold Machine.fanStep
  split
  · exact .setFan s _
  · exact (Steady.setFan s _).trans (.makeClaim _ _ _)

theorem Steady.raiseFan (target : Nat) (s : Part) : Steady s (raiseFan target s) := by
  unfold Machine.raiseFan
  dsimp only
  have cut := (Steady.setArbiter s (s.arbiter.lower fanChan (need s.tables.fan.nominal target))).trans
    (.setFan _ { s.fan with target := target })
  split
  · split
    · exact (cut.trans ((Steady.setArbiter _ _).trans (.setFan _ _))).trans (.grantPass _)
    · exact .passAfter s (cut.trans ((Steady.setArbiter _ _).trans (.setFan _ _)))
  · exact .passAfter s cut

theorem Steady.setTarget (target : Nat) (s : Part) : Steady s (setTarget target s) := by
  have stop : Steady s (stopFan s) := .passAfter s ((Steady.setArbiter s _).trans (.setFan _ _))
  have cut : Steady s (cutFan target s) := .passAfter s ((Steady.setArbiter s _).trans (.setFan _ _))
  have reclaim : Steady s (reclaimFan target s) := (Steady.setFan s _).trans (.makeClaim _ _ _)
  have step : ∀ f : Fan, Steady s (Machine.fanStep (s.setFan f)) := fun f =>
    (Steady.setFan s f).trans (.fanStep _)
  unfold Machine.setTarget
  refine .ite (.refl s) ?_
  split
  · exact step _
  · exact .ite stop reclaim
  · exact .ite stop (.ite cut (.raiseFan target s))
  · exact .ite stop (.ite cut (step _))
  · exact .ite stop (.setFan s _)
  · exact .setFan s _

theorem Steady.selectFan (s : Part) : Steady s (selectFan s) :=
  .ite (.refl s) (.ite (.setFan s _) (.setTarget _ s))

/-! ### Gauges -/

theorem Steady.startTest (s : Part) (g : Fin 4) : Steady s (startTest s g) :=
  .ite ((Steady.setGauge s g _).trans (.makeClaim _ _ _)) (.refl s)

theorem Steady.loseSender (s : Part) (g : Fin 4) : Steady s (loseSender s g) := by
  unfold Machine.loseSender
  dsimp only
  split
  iterate 2
    split
    · exact .of_eq rfl rfl rfl rfl rfl
    · split <;> exact .of_eq rfl rfl rfl rfl rfl
  all_goals exact .of_eq rfl rfl rfl rfl rfl

theorem Steady.regainSender (s : Part) (g : Fin 4) : Steady s (regainSender s g) := by
  unfold Machine.regainSender
  dsimp only
  split
  · exact .setGauge s g _
  · exact .ite (.setGauge s g _) (.refl s)
  · exact (Steady.setGauge s g _).trans (.startTest _ g)
  all_goals exact .refl s

theorem Steady.followSenders (s : Part) : Steady s (followSenders s) :=
  (Steady.passAfter s (.foldl (fun s g => .loseSender s g) _ s)).trans (.foldl (fun s g => .regainSender s g) _ _)

theorem Steady.parkForIgnition (s : Part) (g : Fin 4) : Steady s (parkForIgnition s g) := by
  unfold Machine.parkForIgnition
  dsimp only
  split
  iterate 4
    split <;> exact .of_eq rfl rfl rfl rfl rfl
  all_goals exact .of_eq rfl rfl rfl rfl rfl

theorem Steady.resumeGauge (s : Part) (g : Fin 4) : Steady s (resumeGauge s g) := by
  unfold Machine.resumeGauge
  dsimp only
  split
  · refine .ite (.setGauge s g _) ?_
    split <;> exact .setGauge s g _
  · exact .startTest s g
  all_goals exact .refl s

theorem Steady.gaugesFollowMode (s : Part) : Steady s (gaugesFollowMode s) :=
  .ite (.foldl (fun s g => .resumeGauge s g) _ s) (.passAfter s (.foldl (fun s g => .parkForIgnition s g) _ s))

/-! ### Power manager and the end of an event -/

/-- A mode or an ignition state handed to the blocks leaves the ports and the power manager as they are (09: R155). -/
theorem Steady.handMode (was : Mode) (s : Part) : Steady s (handMode was s) := by
  have blocks : ∀ t : Part, Steady t (handBlocks was t) := fun t => by
    have fan := (Steady.evaluateRules t).trans (.selectFan _)
    exact .ite (fan.trans (.foldl (fun s g => .startTest s g) _ _)) (fan.trans (.gaugesFollowMode _))
  exact .ite ((Steady.setLimit _ s).trans (blocks _)) (((blocks s).trans (.syncConds _)).trans (.setLimit _ _))

theorem Steady.answerSleep (st : Status) (s : Part) : Steady s (answerSleep st s) := by
  unfold Machine.answerSleep
  split
  · exact .refl s
  · rename_i q _
    have taken : Steady s { s with mgmt := { s.mgmt with sleep := none } } := .of_eq rfl rfl rfl rfl rfl
    exact taken.trans (.ite (.of_eq rfl rfl rfl rfl rfl) (.queueOwn _ _ _))

theorem Follows.setPower (s : Part) (p : Power) : Follows s (s.setPower p) := .of_eq (fun _ => rfl) rfl rfl rfl

theorem Follows.wakeTo (mode : Mode) (s : Part) : Follows s (wakeTo mode s) := by
  have light : ∀ r : PortRec, r.lightTx.state = r.state := fun r => by unfold PortRec.lightTx; split <;> rfl
  have lit : ∀ t : Part, Follows t (lightTxs t) := fun t =>
    .of_eq (fun p => by cases p; exact light t.ports.front; exact light t.ports.rear) rfl rfl rfl
  exact ((Follows.setPower s _).trans (lit _)).trans (Steady.handMode _ _).toFollows

theorem Follows.demandRise (s : Part) : Follows s (demandRise s) := by
  unfold Machine.demandRise
  split
  · exact .ite ((Follows.setPower s _).trans (Steady.answerSleep _ _).toFollows) (.refl s)
  · exact .wakeTo _ s
  all_goals exact .refl s

theorem Follows.restartIdle (s : Part) : Follows s (restartIdle s) := by
  unfold Machine.restartIdle
  split
  · exact .setPower s _
  all_goals exact .refl s

theorem Follows.deliverNotice (old s : Part) : Follows s (deliverNotice old s) := by
  have rules := (Steady.evaluateRules s).toFollows
  have eval : Follows s (evaluate s) := .ite (rules.trans (.demandRise _)) rules
  have fan : Follows s (if listed old s s.tables.fan.input then Machine.selectFan (evaluate s) else evaluate s) :=
    .ite (eval.trans (Steady.selectFan _).toFollows) eval
  exact .ite (.ite (fan.trans (.restartIdle _)) fan) (.refl s)

theorem Follows.followLink (s : Part) : Follows s (followLink s) := by
  have room : ∀ t : Part, Follows t (followRoom t) := fun t =>
    .ite (Steady.setCond _ _ t fun p h => by cases p <;> cases h).toFollows (.refl t)
  have fresh : Follows s (followFreshness s) := .of_eq (fun _ => rfl) rfl rfl rfl
  exact (((fresh.trans (.deliverNotice s _)).trans (Steady.followNodes _).toFollows).trans
    (Steady.followSenders _).toFollows).trans (room _)

/-- DORMANT entry, where it ends the event, leaves the ports alone and follows the flags (09: R159). -/
theorem testDeferral_ports (s : Part) : Follows s (testDeferral s) ∧ (testDeferral s).ports = s.ports := by
  have enter : Follows s (enterDormant s) ∧ (enterDormant s).ports = s.ports := by
    have off : ∀ t : Part, Steady t (forceOff t) := fun t => .setChannels t _
    have rest := fun t => ((off t).trans (.handMode s.mode _)).trans (.answerSleep .done _)
    exact ⟨(Follows.setPower s _).trans (rest _).toFollows, (rest _).ports⟩
  unfold testDeferral
  split
  · exact enter
  · exact ⟨.refl s, rfl⟩

/-- What comes after the level conditions at the end of an event. -/
theorem Follows.afterSync (s : Part) : Follows (Machine.syncConds s) (finish s) :=
  ((testDeferral_ports _).1.trans (.setPower _ _)).trans (.setPower _ _)

theorem Follows.finish (s : Part) : Follows s (finish s) := (Steady.syncConds s).toFollows.trans (.afterSync s)

/-- The end of an event leaves the ports exactly as they are. -/
@[simp] theorem finish_ports (s : Part) : (finish s).ports = s.ports :=
  (testDeferral_ports _).2.trans (Steady.syncConds s).ports

@[simp] theorem finish_port (s : Part) (p : Port) : (finish s).port p = s.port p := by
  unfold Part.port
  rw [finish_ports]

/-- In a running part FRONT_DOWN and REAR_DOWN stand as their ports when an event is over (01: R10). -/
theorem finish_down (s : Part) (hs : s.on = true) (p : Port) : (finish s).active (downCond p) = !s.isUp p := by
  have sync := ((syncConds_flags s hs).1 _ (mem_levelCauses_down s p)).1
  have rest := (Follows.afterSync s).down p
  rw [isUp_of_state ((Steady.syncConds s).state p), sync, or_self] at rest
  exact rest

end Sys2Proof.Machine
end

section
/-! What the operations of a port leave of the rest of the part, and what they make of the port's own record. -/

namespace Sys2Proof.Machine

/-! ### A port but for its transmitter -/

/-- A port with its transmitter blanked: what no reaction of the blocks touches. -/
def PortRec.core (r : PortRec) : PortRec := { r with tx := .filling 0 }

/-- A field other than the transmitter can be read off the core. -/
theorem core_field {α : Type} (f : PortRec → α) (hf : ∀ r, f r.core = f r) {r r' : PortRec} (h : r.core = r'.core) :
    f r = f r' := by
  rw [← hf r, h, hf]

theorem core_state {r r' : PortRec} (h : r.core = r'.core) : r.state = r'.state :=
  core_field PortRec.state (fun _ => rfl) h

theorem core_mode {r r' : PortRec} (h : r.core = r'.core) : r.mode = r'.mode :=
  core_field PortRec.mode (fun _ => rfl) h

theorem core_lock {r r' : PortRec} (h : r.core = r'.core) : r.lock = r'.lock :=
  core_field PortRec.lock (fun _ => rfl) h

theorem core_counts {r r' : PortRec} (h : r.core = r'.core) : r.good = r'.good ∧ r.bad = r'.bad ∧ r.alt = r'.alt :=
  ⟨core_field PortRec.good (fun _ => rfl) h, core_field PortRec.bad (fun _ => rfl) h,
   core_field PortRec.alt (fun _ => rfl) h⟩

theorem core_reframe {r r' : PortRec} (h : r.core = r'.core) : r.reframe = r'.reframe :=
  core_field PortRec.reframe (fun _ => rfl) h

theorem core_quiet {r r' : PortRec} (h : r.core = r'.core) : r.quiet = r'.quiet :=
  core_field PortRec.quiet (fun _ => rfl) h

theorem core_rx {r r' : PortRec} (h : r.core = r'.core) : r.rx = r'.rx :=
  core_field PortRec.rx (fun _ => rfl) h

theorem core_counters {r r' : PortRec} (h : r.core = r'.core) : r.counters = r'.counters :=
  core_field PortRec.counters (fun _ => rfl) h

theorem core_lightTx (r : PortRec) : r.lightTx.core = r.core := by
  unfold PortRec.lightTx
  split <;> rfl

theorem Undisturbed.core {s t : Part} (h : Undisturbed s t) (p : Port) : (t.port p).core = (s.port p).core := by
  rw [← core_lightTx, h.port p, core_lightTx]

/-- A frame in transmission is no matter of the blocks' reactions. -/
theorem Undisturbed.sending {s t : Part} (h : Undisturbed s t) {p : Port} {f : TxFrame}
    (hf : (s.port p).tx = .sending f) : (t.port p).tx = .sending f := by
  have lit := h.port p
  unfold PortRec.lightTx at lit
  rw [if_neg (show ¬ (s.port p).tx = .dark by rw [hf]; exact TxState.noConfusion)] at lit
  split at lit
  · rw [← lit] at hf
    cases hf
  · rw [lit, hf]

/-! ### Port records replaced -/

theorem setRx_port (s : Part) (p : Port) (x : Rx) : (s.setRx p x).port p = { s.port p with rx := x } := setPort_port ..

theorem count_port (s : Part) (p : Port) (f : Counters → Counters) :
    (s.count p f).port p = { s.port p with counters := f (s.port p).counters } := setPort_port ..

theorem countDrop_port (p : Port) (s : Part) : (countDrop p s).port p =
    { s.port p with counters := { (s.port p).counters with relayDrops := bump16 (s.port p).counters.relayDrops } } :=
  count_port ..

/-! ### What an event on a port leaves alone -/

/-- What every symbol on a port leaves: the state of the other port, the stage; no changed flag is lost and no active
flag changes unmarked. -/
structure OnPort (p : Port) (s t : Part) : Prop where
  other : (t.port p.other).state = (s.port p.other).state
  on : t.on = s.on
  kept : ∀ c, s.changed c = true → t.changed c = true
  marked : ∀ c, t.active c ≠ s.active c → t.changed c = true

/-- An event on a port that takes no frame: receive and relay queues, node table and own-number timer stay too. -/
structure NoTake (p : Port) (s t : Part) : Prop extends OnPort p s t where
  nodes : t.relay.nodes = s.relay.nodes
  ownTimer : t.relay.ownTimer = s.relay.ownTimer
  rxQ : ∀ q, t.rxQ q = s.rxQ q
  relayQ : ∀ q, t.relayQ q = s.relayQ q

theorem OnPort.trans {p : Port} {s t u : Part} (h : OnPort p s t) (k : OnPort p t u) : OnPort p s u where
  other := k.other.trans h.other
  on := k.on.trans h.on
  kept c hc := k.kept c (h.kept c hc)
  marked c hc := by
    by_cases e : u.active c = t.active c
    · exact k.kept c (h.marked c (e ▸ hc))
    · exact k.marked c e

theorem NoTake.trans {p : Port} {s t u : Part} (h : NoTake p s t) (k : NoTake p t u) : NoTake p s u :=
  { h.toOnPort.trans k.toOnPort with
    nodes := k.nodes.trans h.nodes
    ownTimer := k.ownTimer.trans h.ownTimer
    rxQ := fun q => (k.rxQ q).trans (h.rxQ q)
    relayQ := fun q => (k.relayQ q).trans (h.relayQ q) }

/-- A change of the ports alone that leaves the state of the other port. -/
theorem NoTake.of_ports {p : Port} {s t : Part} (ho : (t.port p.other).state = (s.port p.other).state)
    (hr : t.relay = s.relay) (hw : t.power = s.power) (hm : t.mgmt = s.mgmt) : NoTake p s t where
  other := ho
  on := by unfold Part.on; rw [hw]
  kept c h := by unfold Part.changed at *; rw [hm]; exact h
  marked c h := absurd (by unfold Part.active; rw [hm]) h
  nodes := by rw [hr]
  ownTimer := by rw [hr]
  rxQ q := by unfold Part.rxQ; rw [hr]
  relayQ q := by unfold Part.relayQ; rw [hr]

theorem NoTake.refl (p : Port) (s : Part) : NoTake p s s := .of_ports rfl rfl rfl rfl

theorem NoTake.setPort (p : Port) (s : Part) (r : PortRec) : NoTake p s (s.setPort p r) :=
  .of_ports (by rw [setPort_other]) rfl rfl rfl

theorem NoTake.setRx (p : Port) (s : Part) (x : Rx) : NoTake p s (s.setRx p x) := .setPort ..

theorem NoTake.count (p : Port) (s : Part) (f : Counters → Counters) : NoTake p s (s.count p f) := .setPort ..

theorem NoTake.setTx (p : Port) (s : Part) (x : TxState) : NoTake p s (s.setTx p.other x) :=
  .of_ports (by unfold Part.setTx; rw [setPort_port]) rfl rfl rfl

/-- A reaction that follows the flags. -/
theorem NoTake.of_reaction (p : Port) {s t : Part} (h : Undisturbed s t) (k : Follows s t) : NoTake p s t where
  other := k.state _
  on := h.on
  kept := k.kept
  marked := k.marked
  nodes := h.relay.1
  ownTimer := h.relay.2.1
  rxQ := h.rxQ
  relayQ := h.relayQ

theorem NoTake.finish (p : Port) (s : Part) : NoTake p s (finish s) := .of_reaction p (finish_still s) (.finish s)

theorem NoTake.followLink (p : Port) (s : Part) : NoTake p s (followLink s) := by
  obtain ⟨b, h⟩ := followLink_still s
  exact { Follows.followLink s with
    other := (Follows.followLink s).state _
    on := h.on
    nodes := h.relay.1
    ownTimer := h.relay.2.1
    rxQ := h.rxQ
    relayQ := h.relayQ }

theorem followLink_core (s : Part) (p : Port) : ((followLink s).port p).core = (s.port p).core := by
  obtain ⟨b, h⟩ := followLink_still s
  exact h.core p

theorem followLink_sending {s : Part} {p : Port} {f : TxFrame} (hf : (s.port p).tx = .sending f) :
    ((followLink s).port p).tx = .sending f := by
  obtain ⟨b, h⟩ := followLink_still s
  exact h.sending hf

/-! ### The transmitter of the other port -/

/-- Cut-through handles the other port's transmitter and nothing else. -/
theorem onCut_port (p : Port) (f : TxFrame → TxFrame) (s : Part) : (onCut p f s).port p = s.port p := by
  unfold onCut
  split
  · exact setPort_other' ..
  all_goals rfl

theorem onCut_sending (p : Port) (f : TxFrame → TxFrame) {s : Part} {t : TxFrame}
    (ht : (s.port p.other).tx = .sending t) : ((onCut p f s).port p.other).tx = .sending (f t) := by
  unfold onCut
  rw [ht]
  simp only [Part.setTx, setPort_port]

theorem NoTake.onCut (p : Port) (f : TxFrame → TxFrame) (s : Part) : NoTake p s (onCut p f s) := by
  unfold Machine.onCut
  split
  · exact .setTx ..
  all_goals exact .refl p s

theorem spoilRelay_port (p : Port) (x : Rx) (s : Part) : (spoilRelay p x s).port p = s.port p := by
  unfold spoilRelay
  split
  · exact onCut_port ..
  · rfl

theorem NoTake.spoilRelay (p : Port) (x : Rx) (s : Part) : NoTake p s (spoilRelay p x s) := by
  unfold Machine.spoilRelay
  split
  · exact .onCut ..
  · exact .refl p s

/-- The cut-through of a frame that ended bad is to end with ABORT (02: R36). -/
theorem spoilRelay_sending {p : Port} {x : Rx} {s : Part} {f : TxFrame} (hx : x.relay = .cutThrough)
    (hf : (s.port p.other).tx = .sending f) :
    ((spoilRelay p x s).port p.other).tx = .sending { f with abort := some .badFrame } := by
  unfold spoilRelay
  rw [if_pos hx]
  exact onCut_sending p _ hf

/-! ### A port record put in place -/

/-- What the abort of a port's own frame does: to the port itself a cause of ABORT, to the other port the loss of its
relay copy at most (01: R16). -/
theorem abortTx_ports (p : Port) (s : Part) :
    (∀ f, (s.port p).tx = .sending f →
      ((abortTx p s).port p).tx = .sending { f with abort := some (f.abort.getD .portLeft) }) ∧
    (∃ c, (abortTx p s).port p.other = { s.port p.other with rx := { (s.port p.other).rx with relay := c } }) ∧
    NoTake p s (abortTx p s) := by
  have keep : ∃ c, s.port p.other = { s.port p.other with rx := { (s.port p.other).rx with relay := c } } := ⟨_, rfl⟩
  unfold abortTx
  split
  · rename_i f hf
    refine ⟨fun g hg => ?_, ?_, ?_⟩
    · rw [hf] at hg
      cases hg
      dsimp only
      split <;> simp only [Part.setTx, Part.setRx, setPort_port, setPort_other']
    · dsimp only
      split
      · simp only [Part.setTx, Part.setRx, setPort_port, setPort_other]
        exact ⟨_, rfl⟩
      · simp only [Part.setTx, setPort_other]
        exact keep
    · dsimp only
      split
      · refine .of_ports ?_ rfl rfl rfl
        simp only [Part.setTx, Part.setRx, setPort_port, setPort_other]
      · exact .setPort ..
  all_goals
    rename_i hf
    exact ⟨fun g hg => (TxState.noConfusion (hf.symm.trans hg)), keep, .refl p s⟩

theorem placePort_core (p : Port) (r : PortRec) (s : Part) : ((placePort p r s).port p).core = r.core := by
  obtain ⟨tx, e⟩ := placePort_port p r s
  rw [e]
  rfl

theorem placePort_other (p : Port) (r : PortRec) (s : Part) :
    ∃ c, (placePort p r s).port p.other = { s.port p.other with rx := { (s.port p.other).rx with relay := c } } := by
  obtain ⟨-, ⟨c, e⟩, -⟩ := abortTx_ports p (s.setPort p r)
  unfold placePort
  simp only
  split
  · exact ⟨c, by rw [e, setPort_other]⟩
  · exact ⟨_, by rw [setPort_other]⟩

theorem NoTake.placePort (p : Port) (r : PortRec) (s : Part) : NoTake p s (placePort p r s) :=
  have put := NoTake.setPort p s r
  show NoTake p s (if _ then _ else _) by
    split
    · exact put.trans (abortTx_ports p _).2.2
    · exact put

theorem writePort_ports (p : Port) (r : PortRec) (s : Part) : (writePort p r s).ports = (placePort p r s).ports :=
  (writePort_reaction p r s).1.ports

theorem writePort_core (p : Port) (r : PortRec) (s : Part) : ((writePort p r s).port p).core = r.core := by
  unfold Part.port
  rw [writePort_ports]
  exact placePort_core p r s

/-- A port record written leaves the other port's transmitter alone. -/
theorem writePort_otherTx (p : Port) (r : PortRec) (s : Part) :
    ((writePort p r s).port p.other).tx = (s.port p.other).tx := by
  obtain ⟨c, e⟩ := placePort_other p r s
  unfold Part.port at *
  rw [writePort_ports, e]

/-- A port that leaves UP is to end its frame with ABORT (01: R16). -/
theorem writePort_abort {p : Port} {r : PortRec} {s : Part} {f : TxFrame} (up : (s.port p).state = .up)
    (left : r.state ≠ .up) (hf : r.tx = .sending f) :
    ∃ f', ((writePort p r s).port p).tx = .sending f' ∧ f'.abort ≠ none := by
  have place : ((placePort p r s).port p).tx = .sending { f with abort := some (f.abort.getD .portLeft) } := by
    unfold placePort
    simp only
    rw [if_pos ⟨up, left⟩]
    exact (abortTx_ports p _).1 f (by rw [setPort_port]; exact hf)
  unfold Part.port at *
  rw [writePort_ports]
  exact ⟨_, place, Option.some_ne_none _⟩

/-- What the writing of a port record does to the flags after it is in place. -/
theorem writePort_steady (p : Port) (r : PortRec) (s : Part) : Steady (placePort p r s) (writePort p r s) :=
  (Steady.syncConds _).trans (.ite (.requestNotice _) (.refl _))

theorem NoTake.writePort (p : Port) (r : PortRec) (s : Part) : NoTake p s (writePort p r s) :=
  (NoTake.placePort p r s).trans
    (.of_reaction p (writePort_reaction p r s).2.still (writePort_steady p r s).toFollows)

/-! ### REFRAME -/

/-- A port after a REFRAME that waited, if any, has taken effect (01: R11). -/
def PortRec.settled (r : PortRec) : PortRec := if r.reframe then r.reframed else r

theorem core_settled (r : PortRec) : r.settled.core = r.core.settled := by
  unfold PortRec.settled
  rw [show r.core.reframe = r.reframe from rfl]
  split <;> rfl

theorem settled_none {r : PortRec} (h : r.reframe = false) : r.settled = r := by
  unfold PortRec.settled
  rw [h]
  exact if_neg (by decide)

theorem settled_reframe (r : PortRec) : r.settled.reframe = false := by
  unfold PortRec.settled
  split
  · rfl
  · rename_i h
    simpa using h

theorem settled_rx (r : PortRec) : r.settled.rx = r.rx := by
  unfold PortRec.settled
  split <;> rfl

theorem settled_counters (r : PortRec) : r.settled.counters = r.counters := by
  unfold PortRec.settled
  split <;> rfl

theorem settled_quiet (r : PortRec) : r.settled.quiet = r.quiet := by
  unfold PortRec.settled
  split <;> rfl

theorem settled_state (r : PortRec) :
    r.settled.state = if r.reframe = true ∧ r.state = .up then .seeking else r.state := by
  unfold PortRec.settled
  split
  · rename_i h
    simp only [PortRec.reframed, h, true_and]
  · rename_i h
    rw [if_neg fun k => h k.1]

/-- Where no REFRAME waits, none is taken. -/
theorem takeReframe_none {p : Port} {s : Part} (h : (s.port p).reframe = false) : takeReframe p s = s := by
  unfold takeReframe
  rw [h]
  exact if_neg (by decide)

theorem takeReframe_core (p : Port) (s : Part) : ((takeReframe p s).port p).core = (s.port p).settled.core := by
  unfold takeReframe PortRec.settled
  split
  · rw [followLink_core, writePort_core]
  · rfl

theorem NoTake.takeReframe (p : Port) (s : Part) : NoTake p s (takeReframe p s) := by
  unfold Machine.takeReframe
  split
  · exact (NoTake.writePort p _ s).trans (.followLink p _)
  · exact .refl p s

theorem takeReframe_sending {p : Port} {s : Part} {f : TxFrame} (hf : (s.port p.other).tx = .sending f) :
    ((takeReframe p s).port p.other).tx = .sending f := by
  unfold takeReframe
  split
  · exact followLink_sending ((writePort_otherTx ..).trans hf)
  · exact hf

/-! ### Symbols -/

/-- A port that has heard a symbol (01: R5, R10). -/
def PortRec.heard (r : PortRec) : PortRec := { (if r.state = .down then r.seek else r) with quiet := some 20 }

theorem heard_up {r : PortRec} (h : r.state ≠ .down) : r.heard = { r with quiet := some 20 } := by
  unfold PortRec.heard
  rw [if_neg h]

theorem heard_quiet (r : PortRec) : r.heard.quiet = some 20 := rfl

theorem heard_rx (r : PortRec) : r.heard.rx = r.rx := by
  unfold PortRec.heard
  split <;> rfl

theorem heard_counters (r : PortRec) : r.heard.counters = r.counters := by
  unfold PortRec.heard
  split <;> rfl

theorem heard_reframe (r : PortRec) : r.heard.reframe = r.reframe := by
  unfold PortRec.heard
  split <;> rfl

theorem heard_state (r : PortRec) : r.heard.state = if r.state = .down then .seeking else r.state := by
  unfold PortRec.heard
  split <;> rfl

theorem hear_port (p : Port) (s : Part) : (hear p s).port p = (s.port p).heard := by
  unfold hear
  simp only [Part.setTx, setPort_other', setPort_port]
  rfl

theorem hear_otherTx (p : Port) (s : Part) : ((hear p s).port p.other).tx = (s.port p.other).tx.slot := by
  unfold hear
  simp only [Part.setTx, setPort_other, setPort_port]

theorem NoTake.hear (p : Port) (s : Part) : NoTake p s (hear p s) := (NoTake.setPort p s _).trans (.setTx ..)

/-- A symbol in a running part that is not QUIET. -/
theorem onSymbol_eq {s : Part} (p : Port) (f : Part → Part) (on : s.on = true) (loud : s.mode ≠ .quiet) :
    onSymbol p f s = finish (f (hear p s)) := by
  unfold onSymbol
  rw [on, if_neg loud]
  rfl

end Sys2Proof.Machine
end

section
/-! The ends of a frame: what FRAGMENT, ABORTED, a bad and a good frame make of the port, and what they leave. -/

namespace Sys2Proof.Machine

/-! ### FRAGMENT and ABORTED -/

/-- A port with its assembly between frames. -/
def PortRec.cleared (r : PortRec) : PortRec := { r with rx := Rx.idle }

/-- A port with other counters. -/
def PortRec.counted (r : PortRec) (c : Counters) : PortRec := { r with counters := c }

/-- A port whose frame has ended as FRAGMENT (01: R5). -/
def PortRec.fragmented (r : PortRec) : PortRec :=
  { r with rx := Rx.idle, counters := { r.counters with fragments := bump16 r.counters.fragments } }

/-- A port whose frame has ended as ABORTED (01: R5, R7). -/
def PortRec.cutShort (r : PortRec) : PortRec :=
  { r with rx := Rx.idle, counters := { r.counters with aborted := bump16 r.counters.aborted } }

/-- A port whose frame, if any, has been ended by something other than its END (01: R5). -/
def PortRec.dropped (r : PortRec) : PortRec :=
  match r.rx.phase with
  | .idle | .discard => r.cleared
  | .header => r.fragmented
  | .body => r.cutShort

theorem clearRx_port (p : Port) (s : Part) : (clearRx p s).port p = (s.port p).cleared := setRx_port ..

theorem dropFragment_port (p : Port) (s : Part) : (dropFragment p s).port p = (s.port p).fragmented := by
  unfold dropFragment
  rw [count_port, clearRx_port]
  rfl

theorem dropAborted_port (p : Port) (s : Part) : (dropAborted p s).port p = (s.port p).cutShort := by
  unfold dropAborted
  rw [spoilRelay_port, count_port, clearRx_port]
  rfl

theorem dropFrame_port (p : Port) (s : Part) : (dropFrame p s).port p = (s.port p).dropped := by
  unfold dropFrame PortRec.dropped
  cases (s.port p).rx.phase with
  | idle => exact clearRx_port p s
  | header => exact dropFragment_port p s
  | body => exact dropAborted_port p s
  | discard => exact clearRx_port p s

theorem NoTake.clearRx (p : Port) (s : Part) : NoTake p s (clearRx p s) := .setRx ..

theorem NoTake.dropFragment (p : Port) (s : Part) : NoTake p s (dropFragment p s) :=
  (NoTake.clearRx p s).trans (.count ..)

theorem NoTake.dropAborted (p : Port) (s : Part) : NoTake p s (dropAborted p s) :=
  ((NoTake.clearRx p s).trans (.count ..)).trans (.spoilRelay ..)

theorem NoTake.dropFrame (p : Port) (s : Part) : NoTake p s (dropFrame p s) := by
  unfold Machine.dropFrame
  split
  · exact .clearRx p s
  · exact .clearRx p s
  · exact .dropFragment p s
  · exact .dropAborted p s

/-- An ABORTED frame spoils its cut-through (02: R36). -/
theorem dropAborted_sending {p : Port} {s : Part} {f : TxFrame} (hx : (s.port p).rx.relay = .cutThrough)
    (hf : (s.port p.other).tx = .sending f) :
    ((dropAborted p s).port p.other).tx = .sending { f with abort := some .badFrame } := by
  refine spoilRelay_sending hx ?_
  simp only [Part.count, clearRx, Part.setRx, setPort_other]
  exact hf

theorem dropped_rx (r : PortRec) : r.dropped.rx = Rx.idle := by
  unfold PortRec.dropped
  split <;> rfl

theorem dropped_reframe (r : PortRec) : r.dropped.reframe = r.reframe := by
  unfold PortRec.dropped
  split <;> rfl

theorem dropped_state (r : PortRec) : r.dropped.state = r.state := by
  unfold PortRec.dropped
  split <;> rfl

theorem dropped_quiet (r : PortRec) : r.dropped.quiet = r.quiet := by
  unfold PortRec.dropped
  split <;> rfl

theorem dropped_counters (r : PortRec) : r.dropped.counters = (match r.rx.phase with
    | .header => { r.counters with fragments := bump16 r.counters.fragments }
    | .body => { r.counters with aborted := bump16 r.counters.aborted }
    | .idle | .discard => r.counters) := by
  unfold PortRec.dropped
  cases r.rx.phase <;> rfl

/-! ### Counts and state after a frame -/

/-- What the counts of frames leave of a port: quiet timer, assembly, REFRAME, counters, transmitter. -/
structure SameRest (r t : PortRec) : Prop where
  quiet : t.quiet = r.quiet
  rx : t.rx = r.rx
  reframe : t.reframe = r.reframe
  counters : t.counters = r.counters
  tx : t.tx = r.tx

theorem afterGood_rest (r : PortRec) : SameRest r r.afterGood := by
  unfold PortRec.afterGood
  dsimp only
  split <;> exact ⟨rfl, rfl, rfl, rfl, rfl⟩

/-- The count of alternate frames after a bad frame (01: R14). -/
def PortRec.altAfter (r : PortRec) (alternate : Bool) : Nat :=
  if alternate = true ∧ r.lock = .auto ∧ r.state = .seeking then r.alt + 1 else 0

theorem afterBad_fall {r : PortRec} (alternate : Bool) (h : r.state = .up ∧ 3 ≤ min 3 (r.bad + 1)) :
    r.afterBad alternate = r.fall := if_pos h

theorem afterBad_turn {r : PortRec} {alternate : Bool} (h : ¬ (r.state = .up ∧ 3 ≤ min 3 (r.bad + 1)))
    (k : 4 ≤ r.altAfter alternate) :
    r.afterBad alternate = { r.zeroed with mode := CheckMode.other r.mode } := (if_neg h).trans (if_pos k)

theorem afterBad_count {r : PortRec} {alternate : Bool} (h : ¬ (r.state = .up ∧ 3 ≤ min 3 (r.bad + 1)))
    (k : ¬ 4 ≤ r.altAfter alternate) :
    r.afterBad alternate = { r with good := 0, bad := min 3 (r.bad + 1), alt := r.altAfter alternate } :=
  (if_neg h).trans (if_neg k)

theorem fall_rest (r : PortRec) : SameRest r r.fall := by
  unfold PortRec.fall
  split <;> exact ⟨rfl, rfl, rfl, rfl, rfl⟩

theorem afterBad_rest (r : PortRec) (alternate : Bool) : SameRest r (r.afterBad alternate) := by
  by_cases h : r.state = .up ∧ 3 ≤ min 3 (r.bad + 1)
  · rw [afterBad_fall alternate h]
    exact fall_rest r
  · by_cases k : 4 ≤ r.altAfter alternate
    · rw [afterBad_turn h k]
      exact ⟨rfl, rfl, rfl, rfl, rfl⟩
    · rw [afterBad_count h k]
      exact ⟨rfl, rfl, rfl, rfl, rfl⟩

/-! ### A bad frame -/

/-- A port at the end of a bad frame, the assembly in the phase given (01: R6). -/
def PortRec.badEnd (r : PortRec) (phase : RxPhase) : PortRec :=
  { r with rx := { Rx.idle with phase := phase }, counters := { r.counters with bad := bump16 r.counters.bad } }

/-- A bad frame counted at its port. -/
def countBad (p : Port) (phase : RxPhase) (s : Part) : Part :=
  (s.setRx p { Rx.idle with phase := phase }).count p fun c => { c with bad := bump16 c.bad }

theorem countBad_port (p : Port) (phase : RxPhase) (s : Part) :
    (countBad p phase s).port p = (s.port p).badEnd phase := by
  unfold countBad
  rw [count_port, setRx_port]
  rfl

theorem NoTake.countBad (p : Port) (phase : RxPhase) (s : Part) : NoTake p s (countBad p phase s) :=
  (NoTake.setRx ..).trans (.count ..)

/-- The port written at the end of a bad frame, with what the write brings. -/
def writeBad (p : Port) (phase : RxPhase) (alternate : Bool) (s : Part) : Part :=
  writePort p (((s.port p).badEnd phase).afterBad alternate) (countBad p phase s)

theorem endBad_eq (p : Port) (phase : RxPhase) (alternate : Bool) (s : Part) :
    endBad p phase alternate s =
      takeReframe p (followLink (spoilRelay p (s.port p).rx (writeBad p phase alternate s))) := by
  unfold writeBad
  rw [← countBad_port]
  rfl

/-- What follows the write of the port at the end of a bad frame. -/
theorem endBad_after (p : Port) (phase : RxPhase) (alternate : Bool) (s : Part) :
    NoTake p (writeBad p phase alternate s) (endBad p phase alternate s) := by
  rw [endBad_eq]
  exact ((NoTake.spoilRelay p _ _).trans (.followLink p _)).trans (.takeReframe p _)

theorem NoTake.endBad (p : Port) (phase : RxPhase) (alternate : Bool) (s : Part) :
    NoTake p s (endBad p phase alternate s) :=
  ((NoTake.countBad p phase s).trans (.writePort p _ _)).trans (endBad_after p phase alternate s)

theorem endBad_core (p : Port) (phase : RxPhase) (alternate : Bool) (s : Part) :
    ((endBad p phase alternate s).port p).core = (((s.port p).badEnd phase).afterBad alternate).settled.core := by
  rw [endBad_eq, takeReframe_core, core_settled, followLink_core, spoilRelay_port, core_settled]
  unfold writeBad
  rw [writePort_core]

/-- A bad frame spoils its cut-through (02: R36). -/
theorem endBad_sending {p : Port} {s : Part} {f : TxFrame} (phase : RxPhase) (alternate : Bool)
    (hx : (s.port p).rx.relay = .cutThrough) (hf : (s.port p.other).tx = .sending f) :
    ((endBad p phase alternate s).port p.other).tx = .sending { f with abort := some .badFrame } := by
  rw [endBad_eq]
  refine takeReframe_sending (followLink_sending (spoilRelay_sending hx ?_))
  unfold writeBad
  rw [writePort_otherTx]
  simp only [countBad, Part.count, Part.setRx, setPort_other]
  exact hf

/-- A port that a bad frame takes out of UP is to end the frame it is sending with ABORT (01: R16). -/
theorem endBad_abort {p : Port} {s : Part} {f : TxFrame} (phase : RxPhase) (alternate : Bool)
    (calm : (s.port p).reframe = false) (up : (s.port p).state = .up)
    (left : (((s.port p).badEnd phase).afterBad alternate).state ≠ .up) (hf : (s.port p).tx = .sending f) :
    ∃ f', ((endBad p phase alternate s).port p).tx = .sending f' ∧ f'.abort ≠ none := by
  have written : ∃ f', ((writeBad p phase alternate s).port p).tx = .sending f' ∧ f'.abort ≠ none := by
    refine writePort_abort ?_ left ((afterBad_rest _ _).tx.trans hf)
    rw [countBad_port]
    exact up
  obtain ⟨f', sent, aborted⟩ := written
  refine ⟨f', ?_, aborted⟩
  have linked : ((followLink (spoilRelay p (s.port p).rx (writeBad p phase alternate s))).port p).tx
      = .sending f' := followLink_sending (by rw [spoilRelay_port]; exact sent)
  rw [endBad_eq, takeReframe_none]
  · exact linked
  · rw [core_reframe (followLink_core _ p), spoilRelay_port, writeBad, core_reframe (writePort_core ..)]
    exact (afterBad_rest _ _).reframe.trans calm

/-! ### A good frame -/

theorem OnPort.of_eq {p : Port} {s t : Part} (ho : (t.port p.other).state = (s.port p.other).state)
    (hw : t.power = s.power) (hm : t.mgmt = s.mgmt) : OnPort p s t where
  other := ho
  on := by unfold Part.on; rw [hw]
  kept c h := by unfold Part.changed at *; rw [hm]; exact h
  marked c h := absurd (by unfold Part.active; rw [hm]) h

theorem OnPort.of_steady (p : Port) {s t : Part} (h : Steady s t) : OnPort p s t where
  other := h.state _
  on := by unfold Part.on; rw [h.power]
  kept := h.kept
  marked := h.marked

theorem OnPort.setRxQ (p : Port) (s : Part) (q : List RxEntry) : OnPort p s (s.setRxQ p q) := .of_eq rfl rfl rfl

theorem OnPort.setLoss (p : Port) (s : Part) (b : Bool) : OnPort p s (s.setLoss p b) := .of_eq rfl rfl rfl

theorem settleTake_port (p : Port) (x : Rx) (s : Part) :
    ∃ c, (settleTake p x s).port p = (s.port p).counted c := by
  unfold settleTake
  split
  · exact ⟨(s.port p).counters, rfl⟩
  · exact ⟨(s.port p).counters, rfl⟩
  · exact ⟨_, setPort_port ..⟩

theorem OnPort.settleTake (p : Port) (x : Rx) (s : Part) : OnPort p s (settleTake p x s) := by
  unfold Machine.settleTake
  split
  · exact .of_eq rfl rfl rfl
  · exact (OnPort.setRxQ p s _).trans (.setLoss p _ _)
  · exact (NoTake.count p s _).toOnPort.trans (.setLoss p _ _)

theorem settleRelay_port (p : Port) (x : Rx) (s : Part) : (settleRelay p x s).port p = s.port p := by
  unfold settleRelay
  split
  · rfl
  · rfl
  · exact onCut_port ..

theorem OnPort.settleRelay (p : Port) (x : Rx) (s : Part) : OnPort p s (settleRelay p x s) := by
  unfold Machine.settleRelay
  split
  · exact .of_eq rfl rfl rfl
  · exact .of_eq rfl rfl rfl
  · exact (NoTake.onCut p _ s).toOnPort

theorem Steady.learn (source kind : Nat) (p : Port) (s : Part) : Steady s (learn source kind p s) := by
  unfold Machine.learn
  refine .ite (.of_eq rfl rfl rfl rfl rfl) ?_
  split
  · exact .of_eq rfl rfl rfl rfl rfl
  · exact .ite (.of_eq rfl rfl rfl rfl rfl) (.setCond _ _ s fun q h => by cases q <;> cases h)

/-- The port written at the end of a good frame, with what the write brings. -/
def writeGood (p : Port) (s : Part) : Part :=
  writePort p (s.port p).cleared.afterGood (clearRx p s)

/-- The copies of a good frame settled. -/
def settleCopies (p : Port) (x : Rx) (s : Part) : Part := settleRelay p x (settleTake p x s)

/-- The source of a good frame learned. -/
def learnSource (p : Port) (x : Rx) (s : Part) : Part := learn (at1 x.bytes 2) (at1 x.bytes 3) p s

theorem endGood_eq (p : Port) (s : Part) : endGood p s =
    takeReframe p (followLink (learnSource p (s.port p).rx (settleCopies p (s.port p).rx (writeGood p s)))) := by
  unfold writeGood
  rw [← clearRx_port]
  rfl

/-- What follows the write of the port at the end of a good frame. -/
theorem endGood_after (p : Port) (s : Part) : OnPort p (writeGood p s) (endGood p s) := by
  rw [endGood_eq]
  have settle : ∀ x t, OnPort p t (settleCopies p x t) := fun x t =>
    (OnPort.settleTake p x t).trans (.settleRelay p x _)
  have learned : ∀ x t, OnPort p t (learnSource p x t) := fun x t => .of_steady p (.learn _ _ p t)
  exact (((settle _ _).trans (learned _ _)).trans (NoTake.followLink p _).toOnPort).trans
    (NoTake.takeReframe p _).toOnPort

theorem OnPort.endGood (p : Port) (s : Part) : OnPort p s (endGood p s) :=
  ((NoTake.clearRx p s).trans (.writePort p _ _)).toOnPort.trans (endGood_after p s)

theorem endGood_core (p : Port) (s : Part) :
    ∃ c, ((endGood p s).port p).core = ((s.port p).cleared.afterGood.counted c).settled.core := by
  obtain ⟨c, e⟩ := settleTake_port p (s.port p).rx (writeGood p s)
  have learned : ∀ x t, (learnSource p x t).port p = t.port p := fun x t => by
    unfold Part.port learnSource
    rw [(Steady.learn _ _ p t).ports]
  refine ⟨c, ?_⟩
  rw [endGood_eq, takeReframe_core, core_settled, followLink_core, learned, settleCopies, settleRelay_port, e,
    core_settled]
  have written : ((writeGood p s).port p).core = (s.port p).cleared.afterGood.core := writePort_core ..
  exact congrArg (fun r : PortRec => (r.counted c).settled) written

end Sys2Proof.Machine
end

section
/-! The symbols: what START, DATA, END, ABORT and FILL do in each phase, and the statements about them. -/

namespace Sys2Proof.Machine

/-! ### The commands -/

section
variable {s : State} (p : Port) (on : s.part.on = true) (loud : s.part.mode ≠ .quiet)
include on loud

theorem exec_startSymbol : exec (.startSymbol p) s
    = .next { s with part := finish (onStart p (hear p s.part)) } := congrArg s.nextPart (onSymbol_eq p _ on loud)

theorem exec_dataSymbol (n : Nibble) : exec (.dataSymbol p n) s
    = .next { s with part := finish (onData p n (hear p s.part)) } := congrArg s.nextPart (onSymbol_eq p _ on loud)

theorem exec_endSymbol : exec (.endSymbol p) s
    = .next { s with part := finish (onEnd p (hear p s.part)) } := congrArg s.nextPart (onSymbol_eq p _ on loud)

theorem exec_abortSymbol : exec (.abortSymbol p) s
    = .next { s with part := finish (onBreak p (hear p s.part)) } := congrArg s.nextPart (onSymbol_eq p _ on loud)

theorem exec_fillSymbol : exec (.fillSymbol p) s
    = .next { s with part := finish (onBreak p (hear p s.part)) } := congrArg s.nextPart (onSymbol_eq p _ on loud)

end

theorem hear_rx (p : Port) (s : Part) : ((hear p s).port p).rx = (s.port p).rx := by
  rw [hear_port]
  exact heard_rx _

theorem hear_counters (p : Port) (s : Part) : ((hear p s).port p).counters = (s.port p).counters := by
  rw [hear_port]
  exact heard_counters _

theorem hear_reframe (p : Port) (s : Part) : ((hear p s).port p).reframe = (s.port p).reframe := by
  rw [hear_port]
  exact heard_reframe _

theorem hear_otherSending {p : Port} {s : Part} {f : TxFrame} (hf : (s.port p.other).tx = .sending f) :
    ((hear p s).port p.other).tx = .sending f := by
  rw [hear_otherTx, hf]
  rfl

/-! ### START -/

theorem beginFrame_port (p : Port) (s : Part) : (beginFrame p s).port p =
    { s.port p with rx := { Rx.idle with phase := .header, mode := (s.port p).mode } } := setPort_port ..

theorem NoTake.onStart (p : Port) (s : Part) : NoTake p s (onStart p s) :=
  ((NoTake.dropFrame p s).trans (.takeReframe p _)).trans (.setRx ..)

/-- A port that has received START: the frame in reception dropped, a waiting REFRAME taken (01: R5, R11). -/
theorem onStart_port (p : Port) (s : Part) : ∃ r : PortRec, r.core = (s.port p).dropped.settled.core ∧
    (onStart p s).port p = { r with rx := { Rx.idle with phase := .header, mode := r.mode } } := by
  refine ⟨(takeReframe p (dropFrame p s)).port p, ?_, beginFrame_port p _⟩
  rw [takeReframe_core, dropFrame_port]

/-- Settles O15: the frame in reception is dropped, a waiting REFRAME taken, the new frame begun. -/
theorem startSymbolBeginsFrame : Obligations.StartSymbolBeginsFrame := by
  unfold Obligations.StartSymbolBeginsFrame
  intro s p on loud
  dsimp only
  obtain ⟨x, core, begun⟩ := onStart_port p (hear p s.part)
  have kept := ((NoTake.hear p s.part).trans (.onStart p _)).trans (.finish p _)
  rw [hear_port] at core
  refine ⟨_, exec_startSymbol p on loud, ?_, ?_, ?_, ?_, fun q => ⟨kept.rxQ q, kept.relayQ q⟩, kept.nodes⟩
  all_goals rw [finish_port, begun]
  · rfl
  · have counters := (core_counters core).trans ((settled_counters _).trans (dropped_counters _))
    rw [heard_rx, heard_counters] at counters
    refine counters.trans ?_
    cases (s.part.port p).rx.phase <;> rfl
  · exact (core_reframe core).trans (settled_reframe _)
  · show x.state = _
    rw [core_state core, settled_state, dropped_reframe, dropped_state, heard_reframe, heard_state]
    cases (s.part.port p).state <;> simp

/-! ### DATA -/

theorem feedCut_port (p : Port) (b : Byte) (s : Part) : (feedCut p b s).port p = s.port p := by
  unfold feedCut
  split
  · exact onCut_port ..
  · rfl

theorem NoTake.feedCut (p : Port) (b : Byte) (s : Part) : NoTake p s (feedCut p b s) := by
  unfold Machine.feedCut
  split
  · exact .onCut ..
  · exact .refl p s

/-- Header time writes the assembly of its port and at most counts a relay drop. -/
theorem headerTime_port (p : Port) (s : Part) :
    ∃ x c, (headerTime p s).port p = { s.port p with rx := x, counters := c } := by
  unfold headerTime
  dsimp only
  split
  · exact ⟨_, (s.port p).counters, (setPort_other' ..).trans (setRx_port ..)⟩
  · split
    · rw [countDrop_port, setRx_port]
      exact ⟨_, _, rfl⟩
    · exact ⟨_, (s.port p).counters, setRx_port ..⟩

theorem NoTake.headerTime (p : Port) (s : Part) : NoTake p s (headerTime p s) := by
  unfold Machine.headerTime
  dsimp only
  split
  · exact (NoTake.setRx ..).trans (.setTx ..)
  · split
    · exact (NoTake.setRx ..).trans (.count ..)
    · exact .setRx ..

theorem takeNibble_first {p : Port} {s : Part} (n : Nibble) (h : (s.port p).rx.half = none) :
    takeNibble p n s = s.setRx p { (s.port p).rx with half := some n } := by
  unfold takeNibble
  dsimp only
  rw [h]

/-- The assembly of a port with one more whole byte. -/
def addByte (p : Port) (b : Byte) (s : Part) : Part :=
  s.setRx p { (s.port p).rx with half := none, bytes := (s.port p).rx.bytes ++ [b] }

/-- The second nibble completes a byte (01: R1); what more it does depends on the byte's place. -/
theorem takeNibble_second {p : Port} {s : Part} {m : Nibble} (n : Nibble) (h : (s.port p).rx.half = some m) :
    takeNibble p n s =
      if (s.port p).rx.phase = .body then feedCut p (m ++ n) (addByte p (m ++ n) s)
      else if (s.port p).rx.bytes.length = 3 then headerTime p (addByte p (m ++ n) s)
      else addByte p (m ++ n) s := by
  unfold takeNibble
  dsimp only
  rw [h]
  rfl

theorem addByte_port (p : Port) (b : Byte) (s : Part) : (addByte p b s).port p = { s.port p with
    rx := { (s.port p).rx with half := none, bytes := (s.port p).rx.bytes ++ [b] } } := setRx_port ..

theorem NoTake.addByte (p : Port) (b : Byte) (s : Part) : NoTake p s (addByte p b s) := .setRx ..

theorem takeNibble_byte {p : Port} {s : Part} {m : Nibble} (n : Nibble) (h : (s.port p).rx.half = some m)
    (k : (s.port p).rx.phase = .body ∨ (s.port p).rx.bytes.length ≠ 3) :
    ((takeNibble p n s).port p).rx =
      { (s.port p).rx with half := none, bytes := (s.port p).rx.bytes ++ [m ++ n] } := by
  rw [takeNibble_second n h]
  split
  · rw [feedCut_port, addByte_port]
  · rename_i header
    rw [if_neg (k.resolve_left header), addByte_port]

/-- A nibble writes the assembly of its port and at most counts a relay drop. -/
theorem takeNibble_port (p : Port) (n : Nibble) (s : Part) :
    ∃ x c, (takeNibble p n s).port p = { s.port p with rx := x, counters := c } := by
  cases h : (s.port p).rx.half with
  | none =>
    rw [takeNibble_first n h]
    exact ⟨_, (s.port p).counters, setRx_port ..⟩
  | some m =>
    rw [takeNibble_second n h]
    split
    · exact ⟨_, (s.port p).counters, (feedCut_port ..).trans (addByte_port ..)⟩
    · split
      · obtain ⟨x, c, e⟩ := headerTime_port p (addByte p (m ++ n) s)
        exact ⟨x, c, by rw [e, addByte_port]⟩
      · exact ⟨_, (s.port p).counters, addByte_port ..⟩

theorem NoTake.takeNibble (p : Port) (n : Nibble) (s : Part) : NoTake p s (takeNibble p n s) := by
  cases h : (s.port p).rx.half with
  | none =>
    rw [takeNibble_first n h]
    exact .setRx ..
  | some m =>
    rw [takeNibble_second n h]
    split
    · exact (NoTake.addByte ..).trans (.feedCut ..)
    · split
      · exact (NoTake.addByte ..).trans (.headerTime ..)
      · exact .addByte ..

/-- DATA between frames and in DISCARD (01: R5). -/
theorem onData_ignored {p : Port} {s : Part} (n : Nibble)
    (h : (s.port p).rx.phase = .idle ∨ (s.port p).rx.phase = .discard) : onData p n s = s := by
  unfold onData
  dsimp only
  rcases h with h | h <;> rw [h]

/-- DATA within a frame, up to its 44th symbol (01: R5). -/
theorem onData_nibble {p : Port} {s : Part} (n : Nibble) (h : (s.port p).rx.phase = .header ∨
    (s.port p).rx.phase = .body ∧ (s.port p).rx.bytes.length ≠ 22) : onData p n s = takeNibble p n s := by
  unfold onData
  dsimp only
  rcases h with h | ⟨h, k⟩
  · rw [h]
  · rw [h]
    exact if_neg k

/-- The 45th DATA symbol of a frame (01: R6). -/
theorem onData_long {p : Port} {s : Part} (n : Nibble) (h : (s.port p).rx.phase = .body)
    (k : (s.port p).rx.bytes.length = 22) : onData p n s = endBad p .discard false s := by
  unfold onData
  dsimp only
  rw [h]
  exact if_pos k

/-- What DATA can do. -/
theorem onData_cases (p : Port) (n : Nibble) (s : Part) : onData p n s = s ∨ onData p n s = takeNibble p n s ∨
    onData p n s = endBad p .discard false s := by
  cases h : (s.port p).rx.phase with
  | idle => exact .inl (onData_ignored n (.inl h))
  | discard => exact .inl (onData_ignored n (.inr h))
  | header => exact .inr (.inl (onData_nibble n (.inl h)))
  | body =>
    by_cases k : (s.port p).rx.bytes.length = 22
    · exact .inr (.inr (onData_long n h k))
    · exact .inr (.inl (onData_nibble n (.inr ⟨h, k⟩)))

theorem NoTake.onData (p : Port) (n : Nibble) (s : Part) : NoTake p s (onData p n s) := by
  rcases onData_cases p n s with e | e | e <;> rw [e]
  · exact .refl p s
  · exact .takeNibble p n s
  · exact .endBad ..

/-- Settles O16: by the phase of the assembly and the nibble it holds. -/
theorem dataSymbolAddsNibble : Obligations.DataSymbolAddsNibble := by
  unfold Obligations.DataSymbolAddsNibble
  intro s p n on loud r
  have kept := ((NoTake.hear p s.part).trans (.onData p n _)).trans (.finish p _)
  have hrx := hear_rx p s.part
  have hcounters := hear_counters p s.part
  refine ⟨_, exec_dataSymbol p on loud n, fun h => ?_, fun h => ⟨fun first => ?_, fun m second place => ?_⟩,
    fun h long => ?_, fun q => ⟨kept.rxQ q, kept.relayQ q⟩, kept.nodes⟩
  all_goals rw [finish_port]
  · rw [onData_ignored n (by rw [hrx]; exact h)]
    exact ⟨hrx, hcounters⟩
  · rw [onData_nibble n (by rw [hrx]; exact h), takeNibble_first n (by rw [hrx]; exact first), setRx_port, hrx]
  · rw [onData_nibble n (by rw [hrx]; exact h),
      takeNibble_byte n (by rw [hrx]; exact second) (by rw [hrx]; exact place), hrx]
  · rw [onData_long n (by rw [hrx]; exact h) (by rw [hrx]; exact long)]
    have core := endBad_core p .discard false (hear p s.part)
    have rx := (core_rx core).trans ((settled_rx _).trans (afterBad_rest _ _).rx)
    have counters := (core_counters core).trans ((settled_counters _).trans (afterBad_rest _ _).counters)
    rw [rx, counters]
    refine ⟨rfl, rfl, rfl, ?_⟩
    unfold PortRec.badEnd
    rw [hcounters]

end Sys2Proof.Machine
end

section
/-! The ends of a frame by END, ABORT and FILL, and what they make of counts, port state and flags. -/

namespace Sys2Proof.Machine

/-! ### END, ABORT and FILL -/

/-- The tests of a good frame (01: R6). -/
theorem judge_good_iff (m : CheckMode) (bytes : List Byte) (half : Option Nibble) : judge m bytes half = .good ↔
    4 + checkLength m ≤ bytes.length ∧ ¬ (m = .sum8 ∧ bytes.length = 22) ∧ half = none ∧
    checkPasses m bytes = true ∧ ¬ (sourceByte bytes = 0 ∨ sourceByte bytes = 63) := by
  unfold judge
  split
  · rename_i short
    exact ⟨nofun, fun ⟨long, _⟩ => absurd long (Nat.not_le_of_lt short)⟩
  · rename_i long
    split
    · rename_i full
      exact ⟨nofun, fun ⟨_, room, _⟩ => absurd full room⟩
    · rename_i room
      split
      · rename_i odd
        exact ⟨nofun, fun ⟨_, _, even, _⟩ => absurd even (Option.isSome_iff_ne_none.1 odd)⟩
      · rename_i even
        split
        · rename_i fails
          exact ⟨nofun, fun ⟨_, _, _, passes, _⟩ => absurd fails (by simp [passes])⟩
        · rename_i passes
          split
          · rename_i source
            exact ⟨nofun, fun ⟨_, _, _, _, named⟩ => absurd source named⟩
          · rename_i named
            exact ⟨fun _ => ⟨Nat.le_of_not_lt long, room, by simpa using even, by simpa using passes, named⟩,
              fun _ => rfl⟩

/-- The frame in reception passes every test in the mode of its port (01: R6). -/
def PortRec.isGood (r : PortRec) : Prop := judge r.mode r.rx.bytes r.rx.half = .good

/-- The frame in reception would be good in the other mode (01: R9). -/
def PortRec.otherwiseGood (r : PortRec) : Bool := judge (CheckMode.other r.mode) r.rx.bytes r.rx.half == .good

theorem onEnd_body {p : Port} {s : Part} (h : (s.port p).rx.phase = .body) : onEnd p s = endFrame p s := by
  unfold onEnd
  rw [h]

theorem endFrame_good {p : Port} {s : Part} (h : (s.port p).isGood) : endFrame p s = endGood p s := if_pos h

theorem endFrame_bad {p : Port} {s : Part} (h : ¬ (s.port p).isGood) :
    endFrame p s = endBad p .idle (s.port p).otherwiseGood s := if_neg h

/-- What breaks off a frame without judging it: ABORT, FILL, or an END outside BODY (01: R5, R7). -/
def breakFrame (p : Port) (isEnd : Bool) (s : Part) : Part :=
  match (s.port p).rx.phase with
  | .idle => s
  | .discard => if isEnd then clearRx p s else s
  | .header => takeReframe p (dropFragment p s)
  | .body => takeReframe p (dropAborted p s)

theorem onEnd_break {p : Port} {s : Part} (h : (s.port p).rx.phase ≠ .body) : onEnd p s = breakFrame p true s := by
  unfold onEnd breakFrame
  cases e : (s.port p).rx.phase with
  | body => exact absurd e h
  | idle | header | discard => rfl

theorem onBreak_eq (p : Port) (s : Part) : onBreak p s = breakFrame p false s := by
  unfold onBreak breakFrame
  cases (s.port p).rx.phase <;> rfl

theorem breakFrame_idle {p : Port} {s : Part} {isEnd : Bool} (h : (s.port p).rx.phase = .idle) :
    breakFrame p isEnd s = s := by
  unfold breakFrame
  rw [h]

theorem breakFrame_discard {p : Port} {s : Part} {isEnd : Bool} (h : (s.port p).rx.phase = .discard) :
    breakFrame p isEnd s = if isEnd then clearRx p s else s := by
  unfold breakFrame
  rw [h]

theorem breakFrame_header {p : Port} {s : Part} {isEnd : Bool} (h : (s.port p).rx.phase = .header) :
    breakFrame p isEnd s = takeReframe p (dropFragment p s) := by
  unfold breakFrame
  rw [h]

theorem breakFrame_body {p : Port} {s : Part} {isEnd : Bool} (h : (s.port p).rx.phase = .body) :
    breakFrame p isEnd s = takeReframe p (dropAborted p s) := by
  unfold breakFrame
  rw [h]

theorem NoTake.breakFrame (p : Port) (isEnd : Bool) (s : Part) : NoTake p s (breakFrame p isEnd s) := by
  unfold Machine.breakFrame
  split
  · exact .refl p s
  · split
    · exact .clearRx p s
    · exact .refl p s
  · exact (NoTake.dropFragment p s).trans (.takeReframe p _)
  · exact (NoTake.dropAborted p s).trans (.takeReframe p _)

theorem clearRx_idle_or {p : Port} {s : Part} (isEnd : Bool) :
    (if isEnd then clearRx p s else s).port p =
      { s.port p with rx := if isEnd then Rx.idle else (s.port p).rx } := by
  cases isEnd
  · rfl
  · exact clearRx_port p s

/-- Where no REFRAME waits, a frame broken off leaves state, mode and counts of its port as they are (01: R7, R9). -/
theorem breakFrame_port {p : Port} {s : Part} (isEnd : Bool) (calm : (s.port p).reframe = false) :
    ∃ x c, ((breakFrame p isEnd s).port p).core = ({ s.port p with rx := x, counters := c } : PortRec).core := by
  cases h : (s.port p).rx.phase with
  | idle =>
    rw [breakFrame_idle h]
    exact ⟨_, _, rfl⟩
  | discard =>
    rw [breakFrame_discard h, clearRx_idle_or]
    exact ⟨_, _, rfl⟩
  | header =>
    rw [breakFrame_header h, takeReframe_core, dropFragment_port,
      settled_none (show (s.port p).fragmented.reframe = false from calm)]
    exact ⟨_, _, rfl⟩
  | body =>
    rw [breakFrame_body h, takeReframe_core, dropAborted_port,
      settled_none (show (s.port p).cutShort.reframe = false from calm)]
    exact ⟨_, _, rfl⟩

theorem hear_up {p : Port} {s : Part} (h : (s.port p).state ≠ .down) :
    (hear p s).port p = { s.port p with quiet := some 20 } := by
  rw [hear_port, heard_up h]

/-- The three symbols that break off a frame. -/
theorem exec_breakFrame {s : State} {p : Port} {c : Instr}
    (hc : c ∈ [Instr.endSymbol p, .abortSymbol p, .fillSymbol p]) (on : s.part.on = true) (loud : s.part.mode ≠ .quiet)
    (h : c = .endSymbol p → (s.part.port p).rx.phase ≠ .body) :
    exec c s = .next { s with part := finish (breakFrame p (decide (c = .endSymbol p)) (hear p s.part)) } := by
  simp only [List.mem_cons, List.not_mem_nil, or_false] at hc
  rcases hc with rfl | rfl | rfl
  · rw [exec_endSymbol p on loud, onEnd_break (by rw [hear_rx]; exact h rfl)]
    simp
  · rw [exec_abortSymbol p on loud, onBreak_eq]
    simp
  · rw [exec_fillSymbol p on loud, onBreak_eq]
    simp

/-- Settles O22: by the phase of the assembly. -/
theorem breakEndsFrame : Obligations.BreakEndsFrame := by
  unfold Obligations.BreakEndsFrame
  intro s p c hc on loud up r legal
  have kept := ((NoTake.hear p s.part).trans (.breakFrame p (decide (c = .endSymbol p)) _)).trans (.finish p _)
  have heard := hear_up up
  have hrx := hear_rx p s.part
  refine ⟨_, exec_breakFrame hc on loud legal, fun h => ?_, fun h => ?_, fun h => ?_, fun h => ?_, fun calm => ?_,
    fun q => ⟨kept.rxQ q, kept.relayQ q⟩, kept.nodes⟩
  · rw [finish_port, breakFrame_idle (by rw [hrx]; exact h), heard]
    exact ⟨rfl, rfl⟩
  · rw [finish_port, breakFrame_discard (by rw [hrx]; exact h), clearRx_idle_or, heard]
    refine ⟨rfl, ?_⟩
    by_cases e : c = .endSymbol p
    · rw [decide_eq_true e, if_pos e]
      rfl
    · rw [decide_eq_false e, if_neg e]
      rfl
  · rw [finish_port, breakFrame_header (by rw [hrx]; exact h)]
    have core := takeReframe_core p (dropFragment p (hear p s.part))
    rw [dropFragment_port, heard] at core
    exact ⟨(core_rx core).trans (settled_rx _), (core_counters core).trans (settled_counters _)⟩
  · rw [finish_port, finish_port, breakFrame_body (by rw [hrx]; exact h)]
    have core := takeReframe_core p (dropAborted p (hear p s.part))
    rw [dropAborted_port, heard] at core
    refine ⟨(core_rx core).trans (settled_rx _), (core_counters core).trans (settled_counters _),
      fun f cut sending => ?_⟩
    exact takeReframe_sending (dropAborted_sending (by rw [hrx]; exact cut) (hear_otherSending sending))
  · rw [finish_port]
    obtain ⟨x, k, core⟩ := breakFrame_port (decide (c = .endSymbol p))
      (show ((hear p s.part).port p).reframe = false from (hear_reframe p s.part).trans calm)
    rw [heard] at core
    obtain ⟨good, bad, alt⟩ := core_counts core
    exact ⟨(core_state core).trans rfl, (core_mode core).trans rfl, good, bad, alt⟩

/-! ### END of a bad frame -/

section
variable {s : State} {p : Port} (on : s.part.on = true) (loud : s.part.mode ≠ .quiet)
  (up : (s.part.port p).state ≠ .down) (body : (s.part.port p).rx.phase = .body)
include on loud up body

theorem exec_endSymbol_good (good : (s.part.port p).isGood) :
    exec (.endSymbol p) s = .next { s with part := finish (endGood p (hear p s.part)) } := by
  rw [exec_endSymbol p on loud, onEnd_body (by rw [hear_rx]; exact body),
    endFrame_good (by rw [hear_up up]; exact good)]

theorem exec_endSymbol_bad (bad : ¬ (s.part.port p).isGood) : exec (.endSymbol p) s
    = .next { s with part := finish (endBad p .idle (s.part.port p).otherwiseGood (hear p s.part)) } := by
  rw [exec_endSymbol p on loud, onEnd_body (by rw [hear_rx]; exact body),
    endFrame_bad (by rw [hear_up up]; exact bad), hear_up up]
  rfl

end

/-- Settles O21: each cause fails one of the tests of `judge`, and the frame ends bad. -/
theorem badFrameIsDropped : Obligations.BadFrameIsDropped := by
  unfold Obligations.BadFrameIsDropped
  intro s p on loud up body r b cause
  have heard := hear_up up
  have hrx := hear_rx p s.part
  have bad : ¬ r.isGood := by
    rw [PortRec.isGood, judge_good_iff]
    rintro ⟨long, full, whole, passes, source⟩
    rcases cause with short | full' | half | fails | zero | all
    · exact absurd long (Nat.not_le_of_lt short)
    · exact full full'
    · exact half whole
    · rw [passes] at fails
      exact Bool.noConfusion fails
    · exact source (.inl zero)
    · exact source (.inr all)
  have kept := ((NoTake.hear p s.part).trans (.endBad p .idle r.otherwiseGood _)).trans (.finish p _)
  have core := endBad_core p .idle r.otherwiseGood (hear p s.part)
  rw [heard] at core
  refine ⟨_, exec_endSymbol_bad on loud up body bad, ?_, ?_, fun f cut sending => ?_,
    fun q => ⟨kept.rxQ q, kept.relayQ q⟩, kept.nodes, kept.ownTimer⟩
  all_goals rw [finish_port]
  · exact (core_rx core).trans ((settled_rx _).trans (afterBad_rest _ _).rx)
  · exact (core_counters core).trans ((settled_counters _).trans (afterBad_rest _ _).counters)
  · exact endBad_sending _ _ (by rw [hrx]; exact cut) (hear_otherSending sending)

/-! ### A DOWN port that hears a symbol -/

/-- What every symbol keeps of the port it comes by: the quiet timer as it restarted, and SEEKING where no good frame
has been counted yet (01: R5, R10). -/
structure Seeks (r t : PortRec) : Prop where
  quiet : t.quiet = r.quiet
  seeking : r.state = .seeking → r.good = 0 → t.state = .seeking

theorem Seeks.of_settled {r t u : PortRec} (h : Seeks r t) (core : u.core = t.settled.core) : Seeks r u where
  quiet := (core_quiet core).trans ((settled_quiet t).trans h.quiet)
  seeking hs hg := by
    rw [core_state core, settled_state, h.seeking hs hg]
    exact ite_self _

theorem Seeks.afterGood (r : PortRec) (c : Counters) : Seeks r (r.cleared.afterGood.counted c) where
  quiet := (afterGood_rest _).quiet
  seeking hs hg := by
    show r.cleared.afterGood.state = _
    unfold PortRec.afterGood
    rw [if_neg (by simp [PortRec.cleared, hg])]
    exact hs

theorem Seeks.afterBad (r : PortRec) (phase : RxPhase) (alternate : Bool) :
    Seeks r ((r.badEnd phase).afterBad alternate) where
  quiet := (afterBad_rest _ _).quiet
  seeking hs hg := by
    have up : ¬ ((r.badEnd phase).state = .up ∧ 3 ≤ min 3 ((r.badEnd phase).bad + 1)) := fun h =>
      LinkState.noConfusion (hs.symm.trans h.1)
    by_cases k : 4 ≤ (r.badEnd phase).altAfter alternate
    · rw [afterBad_turn up k]
      exact hs
    · rw [afterBad_count up k]
      exact hs

theorem Seeks.dropped (r : PortRec) : Seeks r r.dropped where
  quiet := dropped_quiet r
  seeking hs _ := (dropped_state r).trans hs

/-- A change of the assembly and the counters. -/
theorem Seeks.setRx (r : PortRec) (x : Rx) (c : Counters) : Seeks r { r with rx := x, counters := c } :=
  ⟨rfl, fun h _ => h⟩

theorem onStart_seeks (p : Port) (s : Part) : Seeks (s.port p) ((onStart p s).port p) := by
  obtain ⟨x, core, e⟩ := onStart_port p s
  rw [e]
  have h := (Seeks.dropped (s.port p)).of_settled core
  exact ⟨h.quiet, h.seeking⟩

theorem endBad_seeks (p : Port) (phase : RxPhase) (alternate : Bool) (s : Part) :
    Seeks (s.port p) ((endBad p phase alternate s).port p) :=
  (Seeks.afterBad _ phase alternate).of_settled (endBad_core p phase alternate s)

theorem onData_seeks (p : Port) (n : Nibble) (s : Part) : Seeks (s.port p) ((onData p n s).port p) := by
  rcases onData_cases p n s with e | e | e <;> rw [e]
  · exact ⟨rfl, fun h _ => h⟩
  · obtain ⟨x, c, e⟩ := takeNibble_port p n s
    rw [e]
    exact .setRx ..
  · exact endBad_seeks ..

theorem breakFrame_seeks (p : Port) (isEnd : Bool) (s : Part) : Seeks (s.port p) ((breakFrame p isEnd s).port p) := by
  cases h : (s.port p).rx.phase with
  | idle =>
    rw [breakFrame_idle h]
    exact .setRx ..
  | discard =>
    rw [breakFrame_discard h, clearRx_idle_or]
    exact .setRx ..
  | header =>
    rw [breakFrame_header h]
    exact (Seeks.setRx ..).of_settled ((takeReframe_core ..).trans (by rw [dropFragment_port]; rfl))
  | body =>
    rw [breakFrame_body h]
    exact (Seeks.setRx ..).of_settled ((takeReframe_core ..).trans (by rw [dropAborted_port]; rfl))

theorem onEnd_seeks (p : Port) (s : Part) :
    Seeks (s.port p) ((onEnd p s).port p) ∧ OnPort p s (onEnd p s) := by
  by_cases body : (s.port p).rx.phase = .body
  · rw [onEnd_body body]
    by_cases good : (s.port p).isGood
    · rw [endFrame_good good]
      obtain ⟨c, core⟩ := endGood_core p s
      exact ⟨(Seeks.afterGood ..).of_settled core, .endGood p s⟩
    · rw [endFrame_bad good]
      exact ⟨endBad_seeks .., (NoTake.endBad ..).toOnPort⟩
  · rw [onEnd_break body]
    exact ⟨breakFrame_seeks .., (NoTake.breakFrame ..).toOnPort⟩

/-- Any symbol: an effect on its port after the symbol is heard. -/
theorem exec_symbol {s : State} {p : Port} {n : Nibble} {c : Instr} (hc : c ∈ symbolsOn p n) (on : s.part.on = true)
    (loud : s.part.mode ≠ .quiet) : ∃ u, exec c s = .next { s with part := finish u } ∧
      Seeks ((hear p s.part).port p) (u.port p) ∧ OnPort p (hear p s.part) u := by
  simp only [symbolsOn, List.mem_cons, List.not_mem_nil, or_false] at hc
  rcases hc with rfl | rfl | rfl | rfl | rfl
  · exact ⟨_, exec_startSymbol p on loud, onStart_seeks .., (NoTake.onStart ..).toOnPort⟩
  · exact ⟨_, exec_dataSymbol p on loud n, onData_seeks .., (NoTake.onData ..).toOnPort⟩
  · exact ⟨_, exec_endSymbol p on loud, (onEnd_seeks ..).1, (onEnd_seeks ..).2⟩
  · refine ⟨_, exec_abortSymbol p on loud, ?_⟩
    rw [onBreak_eq]
    exact ⟨breakFrame_seeks .., (NoTake.breakFrame ..).toOnPort⟩
  · refine ⟨_, exec_fillSymbol p on loud, ?_⟩
    rw [onBreak_eq]
    exact ⟨breakFrame_seeks .., (NoTake.breakFrame ..).toOnPort⟩

/-- Settles O13: the port seeks when it hears the symbol, and the symbol's own effect keeps it there. -/
theorem symbolTakesDownPortToSeeking : Obligations.SymbolTakesDownPortToSeeking := by
  unfold Obligations.SymbolTakesDownPortToSeeking
  intro s p n c hc on loud
  obtain ⟨u, exec, seeks, kept⟩ := exec_symbol hc on loud
  have all := ((NoTake.hear p s.part).toOnPort.trans kept).trans (NoTake.finish p u).toOnPort
  refine ⟨_, exec, ?_, fun down => ?_, all.other⟩
  all_goals rw [finish_port]
  · rw [seeks.quiet, hear_port]
    exact heard_quiet _
  · refine seeks.seeking ?_ ?_
    · rw [hear_port, heard_state, if_pos down]
    · rw [hear_port]
      unfold PortRec.heard
      rw [if_pos down]
      rfl

end Sys2Proof.Machine
end

section
/-! The counts of frames and what they make of a port's state, with the flags of the transitions. -/

namespace Sys2Proof.Machine

/-! ### The flags of a port written -/

theorem placePort_frame (p : Port) (r : PortRec) (s : Part) :
    (placePort p r s).mgmt = s.mgmt ∧ (placePort p r s).power = s.power := by
  unfold placePort abortTx
  simp only
  split
  · split
    · split <;> exact ⟨rfl, rfl⟩
    all_goals exact ⟨rfl, rfl⟩
  · exact ⟨rfl, rfl⟩

/-- A port record written raises or clears each level condition whose cause it turns, and marks the change (10:
R176). -/
theorem writePort_changed {p : Port} {r : PortRec} {s : Part} {c : Cond} {b : Bool} (on : s.on = true)
    (hc : (c, b) ∈ levelCauses (placePort p r s)) (turned : s.active c ≠ b) : (writePort p r s).changed c = true := by
  obtain ⟨mgmt, power⟩ := placePort_frame p r s
  have placed : (placePort p r s).on = true := by
    unfold Part.on
    rw [power]
    exact on
  have active : (placePort p r s).active c = s.active c := by
    unfold Part.active
    rw [mgmt]
  have sync := ((syncConds_flags _ placed).1 _ hc).2
  dsimp only at sync
  rw [active, bne_iff_ne.2 turned, Bool.or_true] at sync
  have asked : Steady (syncConds (placePort p r s)) (writePort p r s) := .ite (.requestNotice _) (.refl _)
  exact asked.kept c sync

/-- A port that comes UP while its condition is active changes it (01: R10). -/
theorem writePort_up {p : Port} {r : PortRec} {s : Part} (on : s.on = true) (up : r.state = .up)
    (active : s.active (downCond p) = true) : (writePort p r s).changed (downCond p) = true := by
  have placed : (placePort p r s).isUp p = true := by
    unfold Part.isUp
    rw [core_state (placePort_core p r s), up]
    rfl
  refine writePort_changed on (mem_levelCauses_down _ p) ?_
  rw [active, placed]
  exact Bool.noConfusion

/-- A port that turns to SUM8 under AUTO while LEGACY_SEGMENT is not active changes it (01: R14). -/
theorem writePort_legacy {p : Port} {r : PortRec} {s : Part} (on : s.on = true) (auto : r.lock = .auto)
    (sum8 : r.mode = .sum8) (active : s.active .legacySegment = false) :
    (writePort p r s).changed .legacySegment = true := by
  have placed : ((placePort p r s).port p).legacy = true := by
    unfold PortRec.legacy
    rw [core_lock (placePort_core p r s), core_mode (placePort_core p r s), auto, sum8]
    rfl
  have either : (((placePort p r s).port .front).legacy || ((placePort p r s).port .rear).legacy) = true := by
    cases p <;> rw [placed]
    · rfl
    · exact Bool.or_true _
  refine writePort_changed (b := true) on ?_ (by rw [active]; exact Bool.noConfusion)
  rw [← either]
  simp [levelCauses]

/-! ### Counts -/

theorem afterGood_up {r : PortRec} (h : r.state = .seeking ∧ 1 ≤ r.good) :
    r.afterGood = { r.zeroed with state := .up } := if_pos ⟨h.1, by omega⟩

theorem afterGood_count {r : PortRec} (h : ¬ (r.state = .seeking ∧ 1 ≤ r.good)) :
    r.afterGood = { r with good := min 3 (r.good + 1), bad := 0, alt := 0 } :=
  if_neg fun k => h ⟨k.1, by omega⟩

/-- The fall to SEEKING clears the counts; the mode changes only where a held lock takes effect (01: R10, R13). -/
theorem fall_counts (r : PortRec) : r.fall.state = .seeking ∧ r.fall.good = 0 ∧ r.fall.bad = 0 ∧ r.fall.alt = 0 ∧
    (r.heldLock = none → r.fall.mode = r.mode) := by
  unfold PortRec.fall
  split
  · rename_i h
    exact ⟨rfl, rfl, rfl, rfl, fun k => by rw [k] at h; cases h⟩
  · exact ⟨rfl, rfl, rfl, rfl, fun _ => rfl⟩

theorem countBad_on (p : Port) (phase : RxPhase) {s : Part} (on : s.on = true) : (countBad p phase s).on = true :=
  (NoTake.countBad p phase s).on.trans on

/-! ### The end of a judged frame -/

/-- The flags of a port at the end of an event stand as its state, and a change is marked (01: R10; 10: R176). -/
theorem finish_downFlag {p : Port} {s u : Part} (on : s.on = true) (h : OnPort p s u) :
    ((finish u).active (downCond p) = true ↔ ((finish u).port p).state ≠ .up) ∧
    ((finish u).active (downCond p) ≠ s.active (downCond p) → (finish u).changed (downCond p) = true) := by
  refine ⟨?_, (h.trans (NoTake.finish p u).toOnPort).marked _⟩
  rw [finish_down u (h.on.trans on), finish_port]
  unfold Part.isUp
  cases (u.port p).state <;> simp

/-- The counts and the state of a port after a good frame with no REFRAME pending (01: R9, R10). -/
theorem endGood_counts {p : Port} {s : Part} (calm : (s.port p).reframe = false) :
    let r := s.port p
    let t := (endGood p s).port p
    (r.state = .seeking → 1 ≤ r.good →
      t.state = .up ∧ t.mode = r.mode ∧ t.good = 0 ∧ t.bad = 0 ∧ t.alt = 0) ∧
    (¬ (r.state = .seeking ∧ 1 ≤ r.good) →
      t.state = r.state ∧ t.mode = r.mode ∧ t.good = min 3 (r.good + 1) ∧ t.bad = 0 ∧ t.alt = 0) := by
  obtain ⟨c, core⟩ := endGood_core p s
  have unasked : ((s.port p).cleared.afterGood.counted c).reframe = false := (afterGood_rest _).reframe.trans calm
  rw [settled_none unasked] at core
  refine ⟨fun seeking one => ?_, fun stays => ?_⟩
  · rw [afterGood_up (r := (s.port p).cleared) ⟨seeking, one⟩] at core
    obtain ⟨good, bad, alt⟩ := core_counts core
    exact ⟨(core_state core).trans rfl, (core_mode core).trans rfl, good, bad, alt⟩
  · rw [afterGood_count (r := (s.port p).cleared) stays] at core
    obtain ⟨good, bad, alt⟩ := core_counts core
    exact ⟨(core_state core).trans rfl, (core_mode core).trans rfl, good, bad, alt⟩

/-- The counts and the state of a port after a bad frame with no REFRAME pending (01: R9, R10, R14). -/
theorem endBad_counts {p : Port} {s : Part} (alternate : Bool) (calm : (s.port p).reframe = false) :
    let r := s.port p
    let t := (endBad p .idle alternate s).port p
    (r.state = .up ∧ min 3 (r.bad + 1) = 3 → t.state = .seeking ∧ t.good = 0 ∧ t.bad = 0 ∧ t.alt = 0 ∧
      (r.heldLock = none → t.mode = r.mode) ∧
      (∀ f, r.tx = .sending f → ∃ f', t.tx = .sending f' ∧ f'.abort ≠ none)) ∧
    (¬ (r.state = .up ∧ min 3 (r.bad + 1) = 3) →
      (4 ≤ r.altAfter alternate → t.state = r.state ∧ t.mode = CheckMode.other r.mode ∧
        t.good = 0 ∧ t.bad = 0 ∧ t.alt = 0) ∧
      (r.altAfter alternate < 4 → t.state = r.state ∧ t.mode = r.mode ∧
        t.good = 0 ∧ t.bad = min 3 (r.bad + 1) ∧ t.alt = r.altAfter alternate)) := by
  have core := endBad_core p .idle alternate s
  have unasked : (((s.port p).badEnd .idle).afterBad alternate).reframe = false := (afterBad_rest _ _).reframe.trans calm
  rw [settled_none unasked] at core
  refine ⟨fun ⟨up, three⟩ => ?_, fun stays => ?_⟩
  · have falls := afterBad_fall (r := (s.port p).badEnd .idle) alternate ⟨up, Nat.le_of_eq three.symm⟩
    obtain ⟨seeking, good, bad, alt, mode⟩ := fall_counts ((s.port p).badEnd .idle)
    rw [falls] at core
    obtain ⟨good', bad', alt'⟩ := core_counts core
    refine ⟨(core_state core).trans seeking, good'.trans good, bad'.trans bad, alt'.trans alt,
      fun free => (core_mode core).trans (mode free), fun f sending => ?_⟩
    refine endBad_abort .idle alternate calm up ?_ sending
    rw [falls, seeking]
    exact LinkState.noConfusion
  · have stays' : ¬ (((s.port p).badEnd .idle).state = .up ∧ 3 ≤ min 3 (((s.port p).badEnd .idle).bad + 1)) :=
      fun h => stays ⟨h.1, Nat.le_antisymm (Nat.min_le_left ..) h.2⟩
    refine ⟨fun four => ?_, fun few => ?_⟩
    · rw [afterBad_turn stays' four] at core
      obtain ⟨good, bad, alt⟩ := core_counts core
      exact ⟨(core_state core).trans rfl, (core_mode core).trans rfl, good, bad, alt⟩
    · rw [afterBad_count stays' (Nat.not_le_of_lt few)] at core
      obtain ⟨good, bad, alt⟩ := core_counts core
      exact ⟨(core_state core).trans rfl, (core_mode core).trans rfl, good, bad, alt⟩

/-- The alternate count as R14 words it. -/
theorem altAfter_otherwiseGood (r : PortRec) : r.altAfter r.otherwiseGood =
    if judge (CheckMode.other r.mode) r.rx.bytes r.rx.half = .good ∧ r.lock = .auto ∧ r.state = .seeking
    then r.alt + 1 else 0 := by
  simp only [PortRec.altAfter, PortRec.otherwiseGood, beq_iff_eq]

/-- A fourth alternate frame in CHECK16 turns an AUTO port to SUM8, whatever REFRAME undoes after it (01: R14). -/
theorem endBad_legacy {p : Port} {s : Part} {alternate : Bool} (on : s.on = true) (check16 : (s.port p).mode = .check16)
    (four : 4 ≤ (s.port p).altAfter alternate) (active : s.active .legacySegment = false) :
    (endBad p .idle alternate s).changed .legacySegment = true := by
  have alternates : (alternate = true) ∧ (s.port p).lock = .auto ∧ (s.port p).state = .seeking := by
    refine Classical.byContradiction fun h => ?_
    unfold PortRec.altAfter at four
    rw [if_neg h] at four
    exact absurd four (by decide)
  obtain ⟨-, auto, seeking⟩ := alternates
  have turns := afterBad_turn (r := (s.port p).badEnd .idle) (alternate := alternate)
    (fun h => LinkState.noConfusion (seeking.symm.trans h.1)) four
  refine (endBad_after p .idle alternate s).kept _ ?_
  unfold writeBad
  refine writePort_legacy (countBad_on p .idle on) ?_ ?_ active
  · rw [turns]
    exact auto
  · rw [turns]
    exact congrArg CheckMode.other check16

/-- A second good frame brings a SEEKING port UP, and a waiting REFRAME takes it back to SEEKING (01: R10, R11). -/
theorem endGood_undone {p : Port} {s : Part} (on : s.on = true) (waits : (s.port p).reframe = true)
    (seeking : (s.port p).state = .seeking) (one : 1 ≤ (s.port p).good) (active : s.active (downCond p) = true) :
    ((endGood p s).port p).state = .seeking ∧ (endGood p s).changed (downCond p) = true := by
  have comes := afterGood_up (r := (s.port p).cleared) ⟨seeking, one⟩
  constructor
  · obtain ⟨c, core⟩ := endGood_core p s
    rw [core_state core, settled_state, comes]
    exact if_pos ⟨waits, rfl⟩
  · refine (endGood_after p s).kept _ ?_
    unfold writeGood
    rw [comes]
    exact writePort_up ((NoTake.clearRx p s).on.trans on) rfl active

/-- Settles O20: a good or a bad end of the frame, with the counts each makes and the flags the port's write marks. -/
theorem frameCountsMoveThePort : Obligations.FrameCountsMoveThePort := by
  unfold Obligations.FrameCountsMoveThePort
  intro s p on loud up body
  have ho : (if (s.part.port p).mode = .check16 then CheckMode.sum8 else .check16)
      = CheckMode.other (s.part.port p).mode := by cases (s.part.port p).mode <;> rfl
  simp only [ho]
  have heard := hear_up up
  have hear := NoTake.hear p s.part
  have on' : (Machine.hear p s.part).on = true := hear.on.trans on
  have calm : ∀ b, (s.part.port p).reframe = b → ((Machine.hear p s.part).port p).reframe = b := fun b h =>
    (hear_reframe p s.part).trans h
  by_cases good : (s.part.port p).isGood
  · obtain ⟨stands, marks⟩ := finish_downFlag on (hear.toOnPort.trans (.endGood p _))
    refine ⟨_, exec_endSymbol_good on loud up body good, fun unasked => ?_, stands, marks,
      fun waits _ seeking one active => ?_, fun _ bad => absurd good bad⟩
    · obtain ⟨comes, counts⟩ := endGood_counts (calm _ unasked)
      rw [finish_port]
      rw [heard] at comes counts
      exact ⟨fun _ => comes, fun _ => counts, fun bad => absurd good bad, fun bad => absurd good bad,
        fun bad => absurd good bad⟩
    · rw [finish_port]
      obtain ⟨back, marked⟩ := endGood_undone on' (calm _ waits) (by rw [heard]; exact seeking)
        (by rw [heard]; exact one) active
      exact ⟨back, (Follows.finish _).kept _ marked⟩
  · rw [← altAfter_otherwiseGood]
    obtain ⟨stands, marks⟩ := finish_downFlag on
      (hear.trans (.endBad p .idle (s.part.port p).otherwiseGood _)).toOnPort
    refine ⟨_, exec_endSymbol_bad on loud up body good, fun unasked => ?_, stands, marks,
      fun _ is => absurd is good, fun _ _ check16 four active => ?_⟩
    · obtain ⟨falls, stays⟩ := endBad_counts (s.part.port p).otherwiseGood (calm _ unasked)
      rw [finish_port]
      rw [heard] at falls stays
      exact ⟨fun is => absurd is good, fun is => absurd is good, fun _ state three => falls ⟨state, three⟩,
        fun _ no => (stays no).1, fun _ no => (stays no).2⟩
    · refine (Follows.finish _).kept _ (endBad_legacy on' ?_ ?_ active)
      · rw [heard]
        exact check16
      · rw [heard]
        exact four

end Sys2Proof.Machine
end

section
/-! A port that goes quiet, the wake of a QUIET part, the end of a transmission, and reset. -/

namespace Sys2Proof.Machine

/-! ### The own transmit queue of a port that goes DOWN -/

theorem handHeldFrom_steady (rs : List Reply) (s : Part) :
    Steady s (handHeldFrom rs s) ∧ Undisturbed s (handHeldFrom rs s) := by
  induction rs generalizing s with
  | nil => exact ⟨.of_eq rfl rfl rfl rfl rfl, rfl⟩
  | cons r rs ih =>
    unfold handHeldFrom
    split
    · exact ⟨.of_eq rfl rfl rfl rfl rfl, rfl⟩
    · obtain ⟨steady, still⟩ := ih (handReply r s)
      exact ⟨(Steady.queueOwn _ s _).trans steady, Eq.trans still (Reaction.queueOwn _ s _).still⟩

theorem NoTake.setOwnQ (p : Port) (s : Part) (q : List OwnEntry) : NoTake p s (s.setOwnQ p q) where
  other := rfl
  on := rfl
  kept _ h := h
  marked _ h := absurd rfl h
  nodes := rfl
  ownTimer := rfl
  rxQ _ := rfl
  relayQ _ := rfl

/-- The discard of an own transmit queue leaves the ports alone and, on a DOWN port, leaves nothing in the queue
(02: R42). -/
theorem discardOwn_spec (p : Port) (s : Part) : NoTake p s (discardOwn p s) ∧ (discardOwn p s).ports = s.ports ∧
    ((s.port p).state = .down → (discardOwn p s).ownQ p = []) := by
  have empty := NoTake.setOwnQ p s []
  obtain ⟨steady, still⟩ := handHeldFrom_steady (s.setOwnQ p []).mgmt.hold (s.setOwnQ p [])
  unfold discardOwn
  dsimp only
  split
  · exact ⟨empty.trans (.of_reaction p still steady.toFollows), steady.ports,
      fun down => (steady.mute p down).trans (setOwnQ_ownQ ..)⟩
  · exact ⟨empty, rfl, fun _ => setOwnQ_ownQ ..⟩

/-! ### PORT_QUIET -/

/-- A port that has gone quiet (01: R10). -/
def PortRec.fallen (r : PortRec) : PortRec := { r.dropped.zeroed with state := .down, quiet := none }

/-- A quiet port put DOWN, its own transmit queue discarded. -/
def silencePort (p : Port) (s : Part) : Part := discardOwn p (placePort p (s.port p).fallen (dropFrame p s))

theorem onQuiet_eq (p : Port) (s : Part) :
    onQuiet p s = followLink (takeReframe p (syncConds (silencePort p s))) := by
  unfold silencePort PortRec.fallen
  rw [← dropFrame_port]
  rfl

theorem silencePort_core (p : Port) (s : Part) : ((silencePort p s).port p).core = (s.port p).fallen.core := by
  unfold Part.port silencePort
  rw [(discardOwn_spec p _).2.1]
  exact placePort_core ..

theorem silencePort_ownQ (p : Port) (s : Part) : (silencePort p s).ownQ p = [] :=
  (discardOwn_spec p _).2.2 (core_state (placePort_core ..))

theorem syncConds_port (s : Part) (p : Port) : (syncConds s).port p = s.port p := by
  unfold Part.port
  rw [(Steady.syncConds s).ports]

theorem NoTake.onQuiet (p : Port) (s : Part) : NoTake p s (onQuiet p s) := by
  rw [onQuiet_eq]
  have silent : NoTake p s (silencePort p s) :=
    ((NoTake.dropFrame p s).trans (.placePort p _ _)).trans (discardOwn_spec p _).1
  have sync : NoTake p (silencePort p s) (syncConds (silencePort p s)) :=
    .of_reaction p (Reaction.syncConds _).still (Steady.syncConds _).toFollows
  exact ((silent.trans sync).trans (.takeReframe p _)).trans (.followLink p _)

theorem onQuiet_core (p : Port) (s : Part) : ((onQuiet p s).port p).core = (s.port p).fallen.settled.core := by
  rw [onQuiet_eq, followLink_core, takeReframe_core, core_settled, syncConds_port, silencePort_core, core_settled]

/-- A REFRAME that takes effect on a DOWN port puts nothing in its queue. -/
theorem takeReframe_mute {p : Port} {s : Part} (down : (s.port p).state = .down) :
    (takeReframe p s).ownQ p = s.ownQ p := by
  unfold takeReframe
  split
  · have stays : (s.port p).reframed.state = .down := by simp [PortRec.reframed, down]
    have placed : ((placePort p (s.port p).reframed s).port p).state = .down :=
      (core_state (placePort_core ..)).trans stays
    have written := (writePort_steady p (s.port p).reframed s).mute p placed
    have queue : (placePort p (s.port p).reframed s).ownQ p = s.ownQ p := by
      unfold placePort abortTx
      simp only
      split
      · split
        · split <;> rfl
        all_goals rfl
      · rfl
    refine ((Follows.followLink _).mute p ?_).trans (written.trans queue)
    exact (core_state (writePort_core ..)).trans stays
  · rfl

theorem onQuiet_ownQ (p : Port) (s : Part) : (onQuiet p s).ownQ p = [] := by
  have down : ((silencePort p s).port p).state = .down := core_state (silencePort_core p s)
  have sync : ((syncConds (silencePort p s)).port p).state = .down := by
    rw [syncConds_port]
    exact down
  have reframed : ((takeReframe p (syncConds (silencePort p s))).port p).state = .down := by
    rw [core_state (takeReframe_core p _), settled_state, sync]
    exact if_neg fun h => LinkState.noConfusion h.2
  rw [onQuiet_eq, (Follows.followLink _).mute p reframed, takeReframe_mute sync, (Steady.syncConds _).mute p down]
  exact silencePort_ownQ p s

theorem settled_zero {r : PortRec} (h : r.good = 0 ∧ r.bad = 0 ∧ r.alt = 0) :
    r.settled.good = 0 ∧ r.settled.bad = 0 ∧ r.settled.alt = 0 := by
  unfold PortRec.settled
  split
  · exact ⟨rfl, rfl, rfl⟩
  · exact h

theorem exec_portQuiet {s : State} {p : Port} (on : s.part.on = true) (up : (s.part.port p).state ≠ .down)
    (runs : (s.part.port p).quiet ≠ none) :
    exec (.portQuiet p) s = .next { s with part := finish (onQuiet p s.part) } :=
  congrArg s.nextPart (eventIf_eq _ on (by
    rw [Bool.and_eq_true]
    exact ⟨bne_iff_ne.2 up, Option.isSome_iff_ne_none.2 runs⟩))

/-- Settles O23: the frame is dropped, the port put DOWN with its queue discarded; its condition follows. -/
theorem quietPortGoesDown : Obligations.QuietPortGoesDown := by
  unfold Obligations.QuietPortGoesDown
  intro s p on up runs
  dsimp only
  have kept := (NoTake.onQuiet p s.part).trans (.finish p _)
  have core := onQuiet_core p s.part
  obtain ⟨good, bad, alt⟩ := core_counts core
  obtain ⟨good0, bad0, alt0⟩ := settled_zero (r := (s.part.port p).fallen) ⟨rfl, rfl, rfl⟩
  have down : ((onQuiet p s.part).port p).state = .down := by
    rw [core_state core, settled_state]
    exact if_neg fun h => LinkState.noConfusion h.2
  obtain ⟨stands, marks⟩ := finish_downFlag on (NoTake.onQuiet p s.part).toOnPort
  have active := stands.2 (by rw [finish_port, down]; exact LinkState.noConfusion)
  refine ⟨_, exec_portQuiet on up runs, active, fun clear => marks ?_, ?_, ?_, ?_, ?_, ?_, ?_, ?_, ?_, ?_, kept.other,
    fun q => ⟨kept.rxQ q, kept.relayQ q⟩, kept.nodes⟩
  · exact fun same => Bool.noConfusion ((same.symm.trans active).symm.trans clear)
  on_goal 8 => rw [(Follows.finish _).mute p down]; exact onQuiet_ownQ p s.part
  all_goals rw [finish_port]
  · exact down
  · exact good.trans good0
  · exact bad.trans bad0
  · exact alt.trans alt0
  · exact (core_quiet core).trans (settled_quiet _)
  · exact (core_reframe core).trans (settled_reframe _)
  · exact (core_rx core).trans ((settled_rx _).trans (dropped_rx _))
  · refine (core_counters core).trans ((settled_counters _).trans ((dropped_counters _).trans ?_))
    cases (s.part.port p).rx.phase <;> rfl

/-! ### The wake of a QUIET part -/

/-- The part with its ports woken and the mode DORMANT, before the blocks hear of it (01: R12; 09: R161). -/
def Part.roused (s : Part) : Part :=
  ({ s with ports := ⟨s.ports.front.woken, s.ports.rear.woken⟩ } : Part).setPower { s.power with mode := .dormant }

theorem roused_port (s : Part) (p : Port) : s.roused.port p = (s.port p).woken := by cases p <;> rfl

theorem wakeByLine_spec (s : Part) :
    Steady s.roused (wakeByLine s) ∧ Undisturbed s.roused (wakeByLine s) :=
  ⟨.handMode _ _, (Reaction.handMode _ _).still⟩

/-- A command that senses the line of a QUIET part. -/
theorem exec_wake {s : State} {p : Port} {n : Nibble} {c : Instr} (hc : c ∈ Instr.lineActivity p :: symbolsOn p n)
    (on : s.part.on = true) (silent : s.part.mode = .quiet) :
    exec c s = .next { s with part := finish (wakeByLine s.part) } := by
  have symbol : ∀ f, onSymbol p f s.part = finish (wakeByLine s.part) := fun f => by
    unfold onSymbol
    rw [on, if_pos silent]
    rfl
  simp only [symbolsOn, List.mem_cons, List.not_mem_nil, or_false] at hc
  rcases hc with rfl | rfl | rfl | rfl | rfl | rfl
  · exact congrArg s.nextPart (eventIf_eq _ on (by rw [silent]; rfl))
  all_goals exact congrArg s.nextPart (symbol _)

/-- The quiet timer of a part with a port that is not DOWN stands still when an event is over (09: R161). -/
theorem finish_quiet {s : Part} (h : s.bothDown = false) : (finish s).power.quiet = none := by
  have same : (testDeferral (syncConds s)).bothDown = false := by
    have ports := (testDeferral_ports (syncConds s)).2.trans (Steady.syncConds s).ports
    unfold Part.bothDown Part.port at *
    rw [ports]
    exact h
  show (followQuiet (testDeferral (syncConds s))).power.quiet = none
  unfold followQuiet
  dsimp only
  rw [if_neg (by rw [same]; exact fun k => Bool.noConfusion k.2)]
  rfl

/-- Settles O14: the wake writes ports and mode, and what the blocks do leaves the rest. -/
theorem symbolWakesQuietPart : Obligations.SymbolWakesQuietPart := by
  unfold Obligations.SymbolWakesQuietPart
  intro s p n c hc on silent
  obtain ⟨steady, still⟩ := wakeByLine_spec s.part
  have power : (wakeByLine s.part).power = { s.part.power with mode := .dormant } := steady.power
  have awake : (wakeByLine s.part).staysAwake := by
    refine .inr (.inl ?_)
    show (wakeByLine s.part).power.mode ≠ _
    rw [power]
    exact Mode.noConfusion
  have ended := (finish_outputs _ awake).2.2
  rw [power] at ended
  have all : Undisturbed s.part.roused (finish (wakeByLine s.part)) := Eq.trans (finish_still _) still
  have port : ∀ q, (finish (wakeByLine s.part)).port q = (s.part.port q).woken := fun q => by
    rw [finish_port, ← roused_port]
    unfold Part.port
    rw [steady.ports]
  have up : (wakeByLine s.part).bothDown = false := by
    unfold Part.bothDown
    rw [← finish_port, port]
    rfl
  refine ⟨_, exec_wake hc on silent, ?_, ?_, ?_, finish_quiet up, fun q => ?_, all.relay.1,
    fun q => ⟨all.rxQ q, all.relayQ q⟩, all.inputs, all.tables⟩
  · show (finish _).power.mode = _
    rw [ended]
  · rw [ended]
  · rw [ended]
  · rw [port]
    refine ⟨rfl, rfl, rfl, rfl, rfl, rfl, rfl, rfl, rfl, rfl, ?_⟩
    show lockMode ((s.part.port q).heldLock.getD (s.part.port q).lock) = _
    generalize hl : (s.part.port q).heldLock.getD (s.part.port q).lock = lock
    have woken : (s.part.port q).woken.lock = lock := hl
    rw [woken]
    cases lock <;> rfl

end Sys2Proof.Machine
end

section
/-! The end of a transmission, the SUM8 check, and the values right after reset. -/

namespace Sys2Proof.Machine

/-! ### TRANSMIT_END -/

theorem exec_transmitEnd {s : State} {p : Port} {f : TxFrame} (on : s.part.on = true)
    (sends : (s.part.port p).tx = .sending f) :
    exec (.transmitEnd p) s = .next { s with part := finish (finishFrame p f s.part) } := by
  refine congrArg s.nextPart ?_
  unfold transmitEnd
  rw [sends]
  exact eventIf_eq _ on rfl

theorem finishFrame_abort (p : Port) {f : TxFrame} (s : Part) (h : f.abort ≠ none) :
    finishFrame p f s = dropSent f (endTx p { bytes := f.header ++ f.payload, aborted := true } s) :=
  if_pos (Option.isSome_iff_ne_none.2 h)

/-- The record of a frame that ends with its check and END (01: R3, R4, R16). -/
def wholeFrame (m : CheckMode) (f : TxFrame) : SentFrame :=
  { bytes := f.header ++ f.payload ++ checkBytes m (f.header ++ f.payload), aborted := false }

/-- A NOTICE that ends with END clears the notice owed mark (10: R178). -/
def clearOwed (f : TxFrame) (s : Part) : Part :=
  if f.origin = .notice then { s with mgmt := { s.mgmt with owed := false } } else s

theorem finishFrame_end (p : Port) {f : TxFrame} (s : Part) (h : f.abort = none) (whole : f.complete = true) :
    finishFrame p f s = clearOwed f (endTx p (wholeFrame (s.port p).mode f) s) := by
  unfold finishFrame
  rw [h, whole]
  rfl

theorem finishFrame_wait (p : Port) {f : TxFrame} (s : Part) (h : f.abort = none) (part : f.complete = false) :
    finishFrame p f s = s := by
  unfold finishFrame
  rw [h, part]
  rfl

theorem endTx_port (p : Port) (sent : SentFrame) (s : Part) :
    (endTx p sent s).port p = { s.port p with tx := .filling 0, lastSent := some sent } := setPort_port ..

theorem endTx_other (p : Port) (sent : SentFrame) (s : Part) : (endTx p sent s).port p.other = s.port p.other :=
  setPort_other ..

theorem clearOwed_port (f : TxFrame) (s : Part) (p : Port) : (clearOwed f s).port p = s.port p := by
  unfold clearOwed
  split <;> rfl

/-- Every port is one of the two. -/
theorem port_cases (p q : Port) : q = p ∨ q = p.other := by cases p <;> cases q <;> simp [Port.other]

theorem endTx_counters (p : Port) (sent : SentFrame) (s : Part) (q : Port) :
    ((endTx p sent s).port q).counters = (s.port q).counters := by
  rcases port_cases p q with rfl | rfl
  · rw [endTx_port]
  · rw [endTx_other]

theorem count_fields (s : Part) (a p : Port) (f : Counters → Counters) :
    ((s.count a f).port p).tx = (s.port p).tx ∧ ((s.count a f).port p).lastSent = (s.port p).lastSent := by
  rcases port_cases a p with rfl | rfl
  · rw [count_port]
    exact ⟨rfl, rfl⟩
  · unfold Part.count
    rw [setPort_other]
    exact ⟨rfl, rfl⟩

/-- A relay drop touches no transmitter. -/
theorem dropSent_port (f : TxFrame) (s : Part) (p : Port) :
    ((dropSent f s).port p).tx = (s.port p).tx ∧ ((dropSent f s).port p).lastSent = (s.port p).lastSent := by
  unfold dropSent
  split
  · split
    · exact count_fields ..
    · exact count_fields ..
    all_goals exact ⟨rfl, rfl⟩
  · exact ⟨rfl, rfl⟩

/-- A relay copy cut short by the fall of its port is a relay drop of its arrival port (02: R36, R38). -/
theorem dropSent_relayed {f : TxFrame} {a : Port} (s : Part) (left : f.abort = some .portLeft)
    (copy : f.origin = .relayed a ∨ f.origin = .cutThrough a) : dropSent f s = countDrop a s := by
  unfold dropSent
  rw [if_pos left]
  rcases copy with h | h <;> rw [h]

/-- What the end of a transmission leaves alone. -/
theorem finishFrame_frame (p : Port) (f : TxFrame) (s : Part) : (finishFrame p f s).relay = s.relay ∧
    (finishFrame p f s).inputs = s.inputs ∧ ((finishFrame p f s).port p.other).tx = (s.port p.other).tx := by
  by_cases abort : f.abort = none
  · cases whole : f.complete with
    | true =>
      rw [finishFrame_end p s abort whole, clearOwed_port, endTx_other]
      unfold clearOwed
      split <;> exact ⟨rfl, rfl, rfl⟩
    | false =>
      rw [finishFrame_wait p s abort whole]
      exact ⟨rfl, rfl, rfl⟩
  · rw [finishFrame_abort p s abort, (dropSent_port ..).1, endTx_other]
    unfold dropSent
    split
    · split <;> exact ⟨rfl, rfl, rfl⟩
    · exact ⟨rfl, rfl, rfl⟩

/-- A frame that is all there goes out with its check and END (01: R16). -/
theorem finish_sent {p : Port} {f : TxFrame} (s : Part) (h : f.abort = none) (whole : f.complete = true) :
    ((finish (finishFrame p f s)).port p).tx = .filling 0 ∧
    ((finish (finishFrame p f s)).port p).lastSent = some (wholeFrame (s.port p).mode f) := by
  rw [finish_port, finishFrame_end p s h whole, clearOwed_port, endTx_port]
  exact ⟨rfl, rfl⟩

/-- A calm part stays calm when a transmission ends, and nothing is owed where a NOTICE ended (10: R178). -/
theorem finishFrame_owed {p : Port} {f : TxFrame} {s : Part} (calm : s.calm) (h : f.abort = none)
    (whole : f.complete = true) (notice : f.origin = .notice) : (finish (finishFrame p f s)).mgmt.owed = false := by
  rw [finishFrame_end p s h whole]
  have calm' : (clearOwed f (endTx p (wholeFrame (s.port p).mode f) s)).calm := by
    unfold clearOwed
    rw [if_pos notice]
    obtain ⟨deferral, stand⟩ := calm
    refine ⟨deferral, ?_⟩
    cases p <;> exact stand
  rw [finish_calm _ calm']
  show (clearOwed f _).mgmt.owed = false
  unfold clearOwed
  rw [if_pos notice]

/-- Settles O25: by whether the frame is to be abandoned, is all there, or still arrives. -/
theorem transmitEndPutsFrameOnLine : Obligations.TransmitEndPutsFrameOnLine := by
  unfold Obligations.TransmitEndPutsFrameOnLine
  intro s p f on sends
  dsimp only
  obtain ⟨relay, inputs, other⟩ := finishFrame_frame p f s.part
  have still := finish_still (finishFrame p f s.part)
  refine ⟨_, exec_transmitEnd on sends, fun abort whole => ?_, fun abort => ?_, fun a left copy => ?_,
    fun abort part => ?_, fun abort whole notice calm => finishFrame_owed calm abort whole notice, ?_,
    fun q => ⟨(still.rxQ q).trans ?_, (still.relayQ q).trans ?_⟩, still.relay.1.trans (by rw [relay]),
    still.inputs.trans inputs⟩
  · obtain ⟨free, sent⟩ := finish_sent (p := p) s.part abort whole
    refine ⟨free, sent, fun q => ?_⟩
    rw [finish_port, finishFrame_end p s.part abort whole, clearOwed_port, endTx_counters]
  · rw [finish_port, finishFrame_abort p s.part abort, (dropSent_port ..).1, (dropSent_port ..).2, endTx_port]
    exact ⟨rfl, rfl⟩
  · rw [finish_port, finishFrame_abort p s.part (by rw [left]; exact Option.some_ne_none _),
      dropSent_relayed _ left copy, countDrop_port]
    dsimp only
    rw [endTx_counters]
  · rw [finish_port, finishFrame_wait p s.part abort part]
  · rw [finish_port, other]
  · unfold Part.rxQ
    rw [relay]
  · unfold Part.relayQ
    rw [relay]

/-! ### SUM8 -/

/-- The sum of bytes as a number. -/
theorem sum8_toNat (bytes : List Byte) : (sum8 bytes).toNat = (bytes.map BitVec.toNat).sum % 256 := by
  have fold : ∀ (bs : List Byte) (x : Byte),
      (bs.foldl (· + ·) x).toNat = (x.toNat + (bs.map BitVec.toNat).sum) % 256 := by
    intro bs
    induction bs with
    | nil =>
      intro x
      exact (Nat.mod_eq_of_lt x.isLt).symm
    | cons b bs ih =>
      intro x
      rw [List.foldl_cons, ih, BitVec.toNat_add, List.map_cons, List.sum_cons]
      omega
  rw [sum8, fold]
  simp

theorem checkPasses_sum8_iff (bytes : List Byte) :
    checkPasses .sum8 bytes = true ↔ (bytes.map BitVec.toNat).sum % 256 = 0 := by
  rw [← sum8_toNat]
  show (sum8 bytes == 0) = true ↔ _
  rw [beq_iff_eq, ← BitVec.toNat_inj]
  rfl

theorem checkByte_sum8 (bytes : List Byte) :
    (-(sum8 bytes)).toNat = (256 - (bytes.map BitVec.toNat).sum % 256) % 256 := by
  rw [BitVec.toNat_neg, sum8_toNat]

/-- Settles O11: both sides count the same sum modulo 256. -/
theorem sum8CheckMakesTheSumZero : Obligations.Sum8CheckMakesTheSumZero := by
  unfold Obligations.Sum8CheckMakesTheSumZero
  refine ⟨checkPasses_sum8_iff, fun bytes => ⟨_, rfl, checkByte_sum8 bytes⟩, fun bytes => ?_,
    fun s p f on mode sends whole abort => ?_⟩
  · rw [checkPasses_sum8_iff, checkBytes, List.map_append, List.sum_append, List.map_cons, checkByte_sum8]
    simp only [List.map_nil, List.sum_cons, List.sum_nil]
    omega
  · obtain ⟨-, sent⟩ := finish_sent (p := p) s.part abort whole
    rw [mode] at sent
    exact ⟨_, exec_transmitEnd on sends, sent⟩

/-! ### Reset -/

/-- Settles O3: each block's power-on value read off the reset state. -/
theorem resetHasPowerOnValues : Obligations.ResetHasPowerOnValues := by
  unfold Obligations.ResetHasPowerOnValues
  have port : ∀ p, State.reset.part.port p = PortRec.powerOn .auto (.filling 0) := fun p => by cases p <;> rfl
  have grant : ∀ ch, State.reset.part.grant ch = 0 := fun ch => tab_get _ ch
  have chan : ∀ ch, State.reset.part.chan ch = Chan.off := fun ch => tab_get _ ch
  have gauge : ∀ g, State.reset.part.gauge g = Gauge.parkedAt (defaultGauge g) := fun g => tab_get _ g
  have off : ∀ ch, State.reset.part.chanState ch = .off := fun ch => by
    unfold Part.chanState
    split
    · rw [chan]; rfl
    · rw [chan]; rfl
    · rfl
    · rw [gauge]; rfl
  have dark : ∀ ch, State.reset.part.lit ch = false := fun ch => by
    unfold Part.lit
    split
    · rw [chan]; rfl
    · rw [chan]; rfl
    · rfl
    · rw [gauge]; rfl
  refine ⟨rfl, rfl, fun p => ?_, rfl, rfl, rfl, fun p => ?_, fun i => tab_get _ i, fun ch => ?_,
    committed_zero _ grant, rfl, rfl, rfl, rfl, rfl, rfl, rfl, rfl, rfl, rfl, rfl, rfl, fun g => ?_,
    rfl, rfl, rfl, rfl, rfl, rfl, rfl, rfl, rfl, rfl, rfl, rfl, rfl⟩
  · rw [port]
    exact ⟨rfl, rfl, rfl, rfl, rfl, rfl, rfl, rfl, rfl, rfl⟩
  · cases p <;> exact ⟨rfl, rfl, rfl, rfl⟩
  · rw [chan]
    exact ⟨off ch, grant ch, rfl, rfl, rfl, rfl, rfl, rfl, rfl, dark ch⟩
  · rw [gauge]
    exact ⟨rfl, rfl, rfl, rfl, rfl, rfl, rfl, rfl, rfl⟩

end Sys2Proof.Machine
end

section
/-! CHECK16 as a remainder of polynomials over GF(2): one bit into the register multiplies by X modulo the generator. -/

namespace Sys2Proof.Machine

open Polynomial

/-- The bits of bytes in line order, each from its most significant bit (01: R1, R3). -/
def bitsOf (bytes : List Byte) : List Bool :=
  bytes.flatMap fun b => (List.range 8).map fun i => b.getLsbD (7 - i)

/-- A bit as a coefficient. -/
noncomputable def bitPoly (b : Bool) : (ZMod 2)[X] := C (if b then 1 else 0)

/-- Bits in line order as a polynomial. -/
noncomputable def linePoly (bits : List Bool) : (ZMod 2)[X] := bits.foldl (fun P b => P * X + bitPoly b) 0

/-- The CHECK16 register as a polynomial. -/
noncomputable def registerPoly (r : BitVec 16) : (ZMod 2)[X] :=
  ∑ i ∈ Finset.range 16, if r.getLsbD i then X ^ i else 0

/-- The generator (01: R3). -/
noncomputable def generator : (ZMod 2)[X] := X ^ 16 + X ^ 15 + X ^ 2 + 1

/-! ### One bit -/

theorem crc16_eq_foldl_bits (bytes : List Byte) : crc16 bytes = (bitsOf bytes).foldl crcBit 0xFFFF#16 := by
  have fold : ∀ (bs : List Byte) (r : BitVec 16), bs.foldl crcByte r = (bitsOf bs).foldl crcBit r := by
    intro bs
    induction bs with
    | nil => exact fun r => rfl
    | cons b bs ih =>
      intro r
      rw [bitsOf, List.flatMap_cons, List.foldl_append, List.foldl_cons, ih]
      rfl
  exact fold bytes _

theorem bitsOf_length (bytes : List Byte) : (bitsOf bytes).length = 8 * bytes.length := by
  simp [bitsOf, List.length_flatMap, Nat.mul_comm]

/-- A shift multiplies by X; the bit shifted out is the coefficient of X^16. -/
theorem registerPoly_shift (r : BitVec 16) :
    registerPoly (r <<< 1) + bitPoly r.msb * X ^ 16 = registerPoly r * X := by
  have low : ∀ i ∈ Finset.range 15, (if (r <<< 1).getLsbD (i + 1) then (X : (ZMod 2)[X]) ^ (i + 1) else 0)
      = (if r.getLsbD i then X ^ i else 0) * X := by
    intro i hi
    have small : i + 1 < 16 := Nat.succ_lt_succ (Finset.mem_range.1 hi)
    have bit : (r <<< 1).getLsbD (i + 1) = r.getLsbD i := by
      rw [BitVec.getLsbD_shiftLeft, decide_eq_true small, Nat.add_sub_cancel]
      simp
    rw [bit, ite_mul, zero_mul, pow_succ]
  have top : bitPoly r.msb * X ^ 16 = (if r.getLsbD 15 then X ^ 15 else 0) * X := by
    rw [BitVec.msb_eq_getLsbD_last]
    cases r.getLsbD 15 <;> simp [bitPoly, pow_succ]
  unfold registerPoly
  rw [Finset.sum_range_succ', Finset.sum_range_succ (fun i => if r.getLsbD i then (X : (ZMod 2)[X]) ^ i else 0), add_mul,
    Finset.sum_mul, Finset.sum_congr rfl low, top]
  simp

theorem registerPoly_xor (a b : BitVec 16) : registerPoly (a ^^^ b) = registerPoly a + registerPoly b := by
  unfold registerPoly
  rw [← Finset.sum_add_distrib]
  refine Finset.sum_congr rfl fun i _ => ?_
  rw [BitVec.getLsbD_xor]
  cases a.getLsbD i <;> cases b.getLsbD i <;> simp [CharTwo.add_self_eq_zero]

/-- The constant of `crcBit` is the generator without its leading term. -/
theorem registerPoly_constant : X ^ 16 + registerPoly 0x8005#16 = generator := by
  have bits : ∀ i, i < 16 → (0x8005#16).getLsbD i = decide (i = 0 ∨ i = 2 ∨ i = 15) := by decide
  unfold registerPoly generator
  rw [Finset.sum_congr rfl fun i hi => by rw [bits i (Finset.mem_range.1 hi)]]
  simp [Finset.sum_range_succ]
  ring

/-- One bit into the register: times X, the bit added at X^16, reduced by the generator where X^16 appears (01: R3). -/
theorem registerPoly_crcBit (r : BitVec 16) (b : Bool) :
    registerPoly (crcBit r b) + bitPoly (r.msb != b) * generator = registerPoly r * X + bitPoly b * X ^ 16 := by
  have two : (2 : (ZMod 2)[X]) = 0 := CharTwo.two_eq_zero
  rw [← registerPoly_shift]
  unfold crcBit
  cases hm : r.msb <;> cases b <;> simp only [bitPoly, bne_self_eq_false, Bool.true_bne, Bool.false_bne, Bool.not_false,
    if_true, if_false, Bool.false_eq_true, map_zero, map_one, registerPoly_xor, zero_mul, one_mul, add_zero]
  · rw [← registerPoly_constant]
    linear_combination registerPoly 0x8005#16 * two
  · rw [← registerPoly_constant]
    linear_combination registerPoly 0x8005#16 * two
  · linear_combination -X ^ 16 * two

/-- Bits into the register: the remainder of what came before and the bits, up to a multiple of the generator. -/
theorem registerPoly_foldl (bits : List Bool) (r : BitVec 16) : ∃ Q : (ZMod 2)[X],
    registerPoly (bits.foldl crcBit r) + Q * generator = registerPoly r * X ^ bits.length + linePoly bits * X ^ 16 := by
  induction bits using List.reverseRecOn with
  | nil => exact ⟨0, by simp [linePoly]⟩
  | append_singleton bits b ih =>
    obtain ⟨Q, hQ⟩ := ih
    refine ⟨Q * X + bitPoly ((bits.foldl crcBit r).msb != b), ?_⟩
    have bit := registerPoly_crcBit (bits.foldl crcBit r) b
    have line : linePoly (bits ++ [b]) = linePoly bits * X + bitPoly b := by simp [linePoly]
    rw [List.foldl_append, List.foldl_cons, List.foldl_nil, line, List.length_append, List.length_singleton, pow_succ]
    linear_combination X * hQ + bit

/-! ### The check bytes -/

theorem append_halves (x : BitVec 16) : x.extractLsb' 8 8 ++ x.extractLsb' 0 8 = x := by
  apply BitVec.eq_of_getLsbD_eq
  intro i hi
  rw [BitVec.getLsbD_append]
  split
  · rename_i low
    simp [low]
  · rename_i high
    rw [BitVec.getLsbD_extractLsb', show 8 + (i - 8) = i by omega, decide_eq_true (show i - 8 < 8 by omega)]
    exact Bool.true_and _

theorem checkPasses_check16_iff (bytes : List Byte) (a b : Byte) :
    checkPasses .check16 (bytes ++ [a, b]) = true ↔ [a, b] = checkBytes .check16 bytes := by
  have cut : (bytes ++ [a, b]).length - 2 = bytes.length := by simp
  unfold checkPasses
  dsimp only
  rw [cut, List.drop_left, List.take_left, beq_iff_eq]

/-- Settles O10: bit by bit for the remainder; the rest reads the check bytes and the transmitter's record. -/
theorem check16IsTheRemainder : Obligations.Check16IsTheRemainder := by
  unfold Obligations.Check16IsTheRemainder
  refine ⟨fun bytes => ?_, fun bytes => ⟨_, _, rfl, append_halves _⟩, checkPasses_check16_iff,
    fun s p f on mode sends whole abort => ?_⟩
  · obtain ⟨Q, hQ⟩ := registerPoly_foldl (bitsOf bytes) 0xFFFF#16
    rw [← crc16_eq_foldl_bits, bitsOf_length] at hQ
    exact ⟨Q, hQ⟩
  · obtain ⟨-, sent⟩ := finish_sent (p := p) s.part abort whole
    rw [mode] at sent
    exact ⟨_, exec_transmitEnd on sends, sent⟩

end Sys2Proof.Machine
end

section
/-! The node table kept in order (02: R25): putting an entry in, dropping a number, adding and pinning, learning; and
what they make of the entry of a number. -/

namespace Sys2Proof.Machine

/-! ### An entry put in its place -/

theorem mem_putNode {e x : NodeEntry} {ns : List NodeEntry} (h : x ∈ putNode e ns) : x = e ∨ x ∈ ns := by
  induction ns with
  | nil => exact .inl (List.mem_singleton.1 h)
  | cons y ys ih =>
    unfold putNode at h
    split at h
    · exact List.mem_cons.1 h
    · split at h
      · exact (List.mem_cons.1 h).imp_right (List.mem_cons_of_mem _)
      · rcases List.mem_cons.1 h with rfl | h
        · exact .inr List.mem_cons_self
        · exact (ih h).imp_right (List.mem_cons_of_mem _)

theorem putNode_rising (e : NodeEntry) {ns : List NodeEntry} (h : rising (ns.map (·.node))) :
    rising ((putNode e ns).map (·.node)) := by
  unfold rising at *
  induction ns with
  | nil => exact List.pairwise_singleton _ _
  | cons y ys ih =>
    rw [List.map_cons, List.pairwise_cons] at h
    obtain ⟨first, rest⟩ := h
    unfold putNode
    split
    · rename_i below
      refine List.pairwise_cons.2 ⟨fun n hn => ?_, List.pairwise_cons.2 ⟨first, rest⟩⟩
      rcases List.mem_cons.1 hn with rfl | hn
      · exact below
      · exact Nat.lt_trans below (first n hn)
    · split
      · rename_i same
        refine List.pairwise_cons.2 ⟨fun n hn => ?_, rest⟩
        show e.node < n
        rw [same]
        exact first n hn
      · refine List.pairwise_cons.2 ⟨fun n hn => ?_, ih rest⟩
        obtain ⟨x, hx, rfl⟩ := List.mem_map.1 hn
        rcases mem_putNode hx with rfl | hx
        · dsimp only; omega
        · exact first _ (List.mem_map_of_mem hx)

theorem putNode_length_le (e : NodeEntry) (ns : List NodeEntry) : (putNode e ns).length ≤ ns.length + 1 := by
  induction ns with
  | nil => exact Nat.le_refl _
  | cons y ys ih =>
    unfold putNode
    split
    · exact Nat.le_refl _
    · split
      · exact Nat.le_succ _
      · exact Nat.succ_le_succ ih

/-- An entry takes the place of the one of its number. -/
theorem putNode_length_same {e x : NodeEntry} {ns : List NodeEntry} (h : rising (ns.map (·.node))) (hx : x ∈ ns)
    (same : x.node = e.node) : (putNode e ns).length = ns.length := by
  unfold rising at h
  induction ns with
  | nil => cases hx
  | cons y ys ih =>
    rw [List.map_cons, List.pairwise_cons] at h
    obtain ⟨first, rest⟩ := h
    unfold putNode
    rcases List.mem_cons.1 hx with rfl | hx
    · rw [if_neg (by omega), if_pos same.symm]
      rfl
    · have above := first _ (List.mem_map_of_mem hx)
      rw [same] at above
      rw [if_neg (by omega), if_neg (by omega), List.length_cons, ih rest hx, List.length_cons]

theorem findNode_cons (e : NodeEntry) (ns : List NodeEntry) (n : Nat) :
    findNode (e :: ns) n = if e.node = n then some e else findNode ns n := by
  unfold findNode
  by_cases h : e.node = n
  · rw [List.find?_cons_of_pos (by simpa using h), if_pos h]
  · rw [List.find?_cons_of_neg (by simpa using h), if_neg h]

/-- The entry of a number is the one put in last, that of every other number stays. -/
theorem findNode_putNode (e : NodeEntry) (ns : List NodeEntry) (n : Nat) :
    findNode (putNode e ns) n = if e.node = n then some e else findNode ns n := by
  induction ns with
  | nil => exact findNode_cons ..
  | cons y ys ih =>
    unfold putNode
    split
    · exact findNode_cons ..
    · split
      · rename_i same
        rw [findNode_cons, findNode_cons, same]
        split <;> rfl
      · rename_i other
        rw [findNode_cons, findNode_cons, ih]
        by_cases h : y.node = n
        · rw [if_pos h, if_pos h, if_neg (by omega)]
        · rw [if_neg h, if_neg h]

theorem findNode_some {ns : List NodeEntry} {n : Nat} {e : NodeEntry} (h : findNode ns n = some e) :
    e ∈ ns ∧ e.node = n :=
  ⟨List.mem_of_find?_eq_some h, by simpa using List.find?_some h⟩

theorem findNode_none {ns : List NodeEntry} {n : Nat} (h : findNode ns n = none) : ∀ e ∈ ns, e.node ≠ n := by
  intro e he
  simpa using List.find?_eq_none.1 h e he

/-! ### A number dropped -/

theorem dropNode_rising (n : Nat) {ns : List NodeEntry} (h : rising (ns.map (·.node))) :
    rising ((dropNode n ns).map (·.node)) :=
  h.sublist (List.filter_sublist.map _)

theorem mem_dropNode {n : Nat} {e : NodeEntry} {ns : List NodeEntry} : e ∈ dropNode n ns ↔ e ∈ ns ∧ e.node ≠ n := by
  unfold dropNode
  simp

theorem dropNode_length_le (n : Nat) (ns : List NodeEntry) : (dropNode n ns).length ≤ ns.length :=
  List.length_filter_le _ _

theorem dropNode_length_lt {e : NodeEntry} {ns : List NodeEntry} (h : e ∈ ns) :
    (dropNode e.node ns).length < ns.length :=
  List.length_filter_lt_length_iff_exists.2 ⟨e, h, by simp⟩

theorem findNode_dropNode (k n : Nat) (ns : List NodeEntry) :
    findNode (dropNode k ns) n = if k = n then none else findNode ns n := by
  induction ns with
  | nil => simp [dropNode, findNode]
  | cons y ys ih =>
    unfold dropNode at *
    by_cases h : y.node = k
    · rw [List.filter_cons_of_neg (by simpa using h), ih, findNode_cons]
      by_cases hn : k = n
      · rw [if_pos hn, if_pos hn]
      · rw [if_neg hn, if_neg hn, if_neg (by omega)]
    · rw [List.filter_cons_of_pos (by simpa using h), findNode_cons, findNode_cons, ih]
      by_cases hn : k = n
      · rw [if_pos hn, if_pos hn, if_neg (by omega)]
      · rw [if_neg hn, if_neg hn]

/-! ### The oldest entry -/

theorem oldest_none {ns : List NodeEntry} (h : oldest ns = none) : ns = [] := by
  cases ns with
  | nil => rfl
  | cons e es =>
    unfold oldest at h
    split at h
    · cases h
    · split at h <;> cases h

/-- The entry chosen has the greatest age, and in a table in order the lowest number among equals (02: R29). -/
theorem oldest_some {ns : List NodeEntry} {x : NodeEntry} (h : oldest ns = some x) :
    x ∈ ns ∧ (rising (ns.map (·.node)) → ∀ y ∈ ns, y.age < x.age ∨ y.age = x.age ∧ x.node ≤ y.node) := by
  induction ns generalizing x with
  | nil => cases h
  | cons e es ih =>
    unfold oldest at h
    split at h
    · rename_i none
      cases h
      rw [oldest_none none]
      exact ⟨List.mem_cons_self, fun _ y hy => by simp_all⟩
    · rename_i z old
      obtain ⟨mem, most⟩ := ih old
      split at h
      · rename_i le
        cases h
        refine ⟨List.mem_cons_self, fun order y hy => ?_⟩
        obtain ⟨first, rest⟩ := List.pairwise_cons.1 (show (e.node :: es.map _).Pairwise _ from order)
        rcases List.mem_cons.1 hy with rfl | hy
        · omega
        · have := most rest y hy
          have := first _ (List.mem_map_of_mem hy)
          omega
      · rename_i lt
        cases h
        refine ⟨List.mem_cons_of_mem _ mem, fun order y hy => ?_⟩
        obtain ⟨first, rest⟩ := List.pairwise_cons.1 (show (e.node :: es.map _).Pairwise _ from order)
        rcases List.mem_cons.1 hy with rfl | hy
        · omega
        · exact most rest y hy

/-! ### Additions keep the law of the table -/

/-- The law of the node table apart from the load stage (02: R25). -/
structure TableOk (ns : List NodeEntry) (own : Nat) : Prop where
  room : ns.length ≤ 24
  order : rising (ns.map (·.node))
  others : ∀ e ∈ ns, e.node ≠ own

theorem TableOk.putNode_known {ns : List NodeEntry} {own : Nat} {e x : NodeEntry} (h : TableOk ns own) (hx : x ∈ ns)
    (same : x.node = e.node) : TableOk (putNode e ns) own where
  room := by
    rw [putNode_length_same h.order hx same]
    exact h.room
  order := putNode_rising e h.order
  others y hy := by
    rcases mem_putNode hy with rfl | hy
    · exact same ▸ h.others x hx
    · exact h.others y hy

theorem TableOk.putNode_new {ns : List NodeEntry} {own : Nat} {e : NodeEntry} (h : TableOk ns own)
    (free : ns.length < 24) (ne : e.node ≠ own) : TableOk (putNode e ns) own where
  room := Nat.le_trans (putNode_length_le e ns) free
  order := putNode_rising e h.order
  others y hy := by
    rcases mem_putNode hy with rfl | hy
    · exact ne
    · exact h.others y hy

theorem TableOk.dropNode {ns : List NodeEntry} {own : Nat} (h : TableOk ns own) (n : Nat) :
    TableOk (dropNode n ns) own where
  room := Nat.le_trans (dropNode_length_le n ns) h.room
  order := dropNode_rising n h.order
  others e he := h.others e (mem_dropNode.1 he).1

/-- A new entry in a free place, or in that of an entry of the table. -/
theorem TableOk.addNode {ns : List NodeEntry} {own : Nat} {e : NodeEntry} {goner : Option NodeEntry}
    (h : TableOk ns own) (ne : e.node ≠ own) (held : ∀ x, goner = some x → x ∈ ns) :
    TableOk (addNode e goner ns) own := by
  unfold Machine.addNode
  split
  · rename_i free
    exact h.putNode_new free ne
  · split
    · exact h
    · rename_i x
      exact (h.dropNode x.node).putNode_new (Nat.lt_of_lt_of_le (dropNode_length_lt (held x rfl)) h.room) ne

/-- Entries changed in place under their numbers. -/
theorem TableOk.map {ns : List NodeEntry} {own : Nat} (h : TableOk ns own) (f : NodeEntry → NodeEntry)
    (hf : ∀ e, (f e).node = e.node) : TableOk (ns.map f) own where
  room := by rw [List.length_map]; exact h.room
  order := by
    have same : (ns.map f).map (·.node) = ns.map (·.node) := by
      rw [List.map_map]
      exact List.map_congr_left fun e _ => hf e
    rw [same]
    exact h.order
  others e he := by
    obtain ⟨x, hx, rfl⟩ := List.mem_map.1 he
    rw [hf]
    exact h.others x hx

theorem heardOn_node (e : NodeEntry) (p : Port) : (e.heardOn p).node = e.node := by
  unfold NodeEntry.heardOn NodeEntry.moved
  split
  · rfl
  · split
    · rfl
    · split
      · rfl
      · split <;> rfl

theorem learned_node (e : NodeEntry) (kind : Nat) (p : Port) : (e.learned kind p).node = e.node := heardOn_node e p

theorem replaceable_mem {ns : List NodeEntry} {x : NodeEntry} (h : replaceable ns = some x) : x ∈ ns :=
  (List.mem_filter.1 (oldest_some h).1).1

end Sys2Proof.Machine
end

section
/-! What every event keeps of the node table and of the places in the queues, and what the blocks and the management
unit leave of the receive and relay queues. -/

namespace Sys2Proof.Machine

/-! ### The relations -/

/-- What every event of a running part keeps: the stage, the law of the node table, and the places of each queue. -/
structure Keeps (s t : Part) : Prop where
  stage : t.power.stage = s.power.stage
  table : TableOk s.relay.nodes s.mgmt.node → TableOk t.relay.nodes t.mgmt.node
  rx : ∀ p, s.rxPlaces p ≤ 8 → t.rxPlaces p ≤ 8
  relay : ∀ p, s.relayPlaces p ≤ 6 → t.relayPlaces p ≤ 6
  own : ∀ p, (s.ownQ p).length ≤ 8 → (t.ownQ p).length ≤ 8

/-- An event that neither fills nor empties a receive or relay queue, and clears no QUEUE_LOSS. -/
structure Inward (s t : Part) : Prop extends Keeps s t where
  rxQueue : t.relay.rxQueue = s.relay.rxQueue
  relayQueue : t.relay.relayQueue = s.relay.relayQueue
  lastTaken : t.relay.lastTaken = s.relay.lastTaken
  loss : s.active .queueLoss = true → t.active .queueLoss = true

theorem Keeps.refl (s : Part) : Keeps s s := ⟨rfl, id, fun _ => id, fun _ => id, fun _ => id⟩

theorem Keeps.trans {s t u : Part} (h : Keeps s t) (k : Keeps t u) : Keeps s u where
  stage := k.stage.trans h.stage
  table := k.table ∘ h.table
  rx p := k.rx p ∘ h.rx p
  relay p := k.relay p ∘ h.relay p
  own p := k.own p ∘ h.own p

theorem Inward.refl (s : Part) : Inward s s := ⟨.refl s, rfl, rfl, rfl, id⟩

theorem Inward.trans {s t u : Part} (h : Inward s t) (k : Inward t u) : Inward s u where
  toKeeps := h.toKeeps.trans k.toKeeps
  rxQueue := k.rxQueue.trans h.rxQueue
  relayQueue := k.relayQueue.trans h.relayQueue
  lastTaken := k.lastTaken.trans h.lastTaken
  loss := k.loss ∘ h.loss

theorem Inward.foldl {α : Type} {f : Part → α → Part} (hf : ∀ s x, Inward s (f s x)) (xs : List α) (s : Part) :
    Inward s (xs.foldl f s) := by
  induction xs generalizing s with
  | nil => exact .refl s
  | cons x xs ih => exact (hf s x).trans (ih _)

theorem Inward.ite {s a b : Part} {c : Prop} [Decidable c] (ha : Inward s a) (hb : Inward s b) :
    Inward s (if c then a else b) := by
  split
  · exact ha
  · exact hb

theorem Inward.rxQ {s t : Part} (h : Inward s t) (p : Port) : t.rxQ p = s.rxQ p := by
  unfold Part.rxQ
  rw [h.rxQueue]

theorem Inward.relayQ {s t : Part} (h : Inward s t) (p : Port) : t.relayQ p = s.relayQ p := by
  unfold Part.relayQ
  rw [h.relayQueue]

/-! ### Single updates -/

/-- An update that adds no reservation and no own entry. -/
theorem Inward.of_relay {s t : Part} (rx : ∀ p, ((t.port p).rx.take = .reserved → (s.port p).rx.take = .reserved) ∧
      ((t.port p).rx.relay = .reserved → (s.port p).rx.relay = .reserved))
    (table : TableOk s.relay.nodes s.mgmt.node → TableOk t.relay.nodes t.mgmt.node)
    (rxQueue : t.relay.rxQueue = s.relay.rxQueue) (relayQueue : t.relay.relayQueue = s.relay.relayQueue)
    (lastTaken : t.relay.lastTaken = s.relay.lastTaken)
    (own : ∀ p, (s.ownQ p).length ≤ 8 → (t.ownQ p).length ≤ 8) (stage : t.power.stage = s.power.stage)
    (loss : s.active .queueLoss = true → t.active .queueLoss = true) : Inward s t where
  stage := stage
  table := table
  rx p := by
    unfold Part.rxPlaces Part.rxQ
    rw [rxQueue]
    have still := (rx p).1
    refine fun room => Nat.le_trans (Nat.add_le_add_left ?_ _) room
    split
    · rename_i reserved
      rw [if_pos (still reserved)]
    · exact Nat.zero_le _
  relay p := by
    unfold Part.relayPlaces Part.relayQ
    rw [relayQueue]
    have still := (rx p).2
    refine fun room => Nat.le_trans (Nat.add_le_add_left ?_ _) room
    split
    · rename_i reserved
      rw [if_pos (still reserved)]
    · exact Nat.zero_le _
  own := own
  rxQueue := rxQueue
  relayQueue := relayQueue
  lastTaken := lastTaken
  loss := loss

/-- An update apart from the ports and the frame relay. -/
theorem Inward.of_eq {s t : Part} (ports : t.ports = s.ports) (relay : t.relay = s.relay)
    (stage : t.power.stage = s.power.stage) (node : t.mgmt.node = s.mgmt.node)
    (active : t.mgmt.active = s.mgmt.active) : Inward s t :=
  .of_relay (fun p => by unfold Part.port; rw [ports]; exact ⟨id, id⟩) (by rw [relay, node]; exact id) (by rw [relay])
    (by rw [relay]) (by rw [relay]) (fun p => by unfold Part.ownQ; rw [relay]; exact id) stage
    (by unfold Part.active; rw [active]; exact id)

theorem Inward.of_reaction {s t : Part} (h : Reaction s t) : Inward s t := by
  obtain ⟨nodes, -, rxQueue, -, lastTaken, relayQueue⟩ := h.still.relay
  obtain ⟨-, -, -, -, -, node, -⟩ := h.still.mgmt
  refine .of_relay (fun p => ?_) (by rw [nodes, node]; exact id) rxQueue relayQueue lastTaken (fun p => (h.ownQ p).2)
    h.still.power.1 fun active => (h.still.active .queueLoss rfl).trans active
  obtain ⟨-, -, -, -, -, -, -, -, -, rx, -⟩ := h.still.portRest p
  rw [rx]
  exact ⟨id, id⟩

theorem Inward.setPort (s : Part) (p : Port) (r : PortRec)
    (take : r.rx.take = .reserved → (s.port p).rx.take = .reserved)
    (relay : r.rx.relay = .reserved → (s.port p).rx.relay = .reserved) : Inward s (s.setPort p r) := by
  refine .of_relay (fun q => ?_) id rfl rfl rfl (fun _ => id) rfl id
  rcases port_cases p q with rfl | rfl
  · rw [setPort_port]
    exact ⟨take, relay⟩
  · rw [setPort_other]
    exact ⟨id, id⟩

theorem Inward.setRx (s : Part) (p : Port) (x : Rx) (take : x.take = .reserved → (s.port p).rx.take = .reserved)
    (relay : x.relay = .reserved → (s.port p).rx.relay = .reserved) : Inward s (s.setRx p x) :=
  .setPort s p _ take relay

/-- An assembly with no reservation. -/
theorem Inward.unreserve (s : Part) (p : Port) (x : Rx) (take : x.take = .none) (relay : x.relay = .none) :
    Inward s (s.setRx p x) :=
  .setRx s p x (by rw [take]; exact TakeCopy.noConfusion) (by rw [relay]; exact RelayCopy.noConfusion)

theorem Inward.setTx (s : Part) (p : Port) (x : TxState) : Inward s (s.setTx p x) := .setPort s p _ id id

theorem Inward.count (s : Part) (p : Port) (f : Counters → Counters) : Inward s (s.count p f) := .setPort s p _ id id

/-- Both port records replaced, the assemblies as they are or between frames. -/
theorem Inward.setPorts (s : Part) (ports : PerPort PortRec)
    (h : ∀ p, (ports.get p).rx = (s.port p).rx ∨ (ports.get p).rx = Rx.idle) : Inward s { s with ports := ports } := by
  refine .of_relay (fun p => ?_) id rfl rfl rfl (fun _ => id) rfl id
  show ((ports.get p).rx.take = _ → _) ∧ ((ports.get p).rx.relay = _ → _)
  rcases h p with e | e <;> rw [e]
  · exact ⟨id, id⟩
  · exact ⟨nofun, nofun⟩

theorem Inward.setNodes (s : Part) (ns : List NodeEntry)
    (h : TableOk s.relay.nodes s.mgmt.node → TableOk ns s.mgmt.node) : Inward s (s.setNodes ns) :=
  .of_relay (fun _ => ⟨id, id⟩) h rfl rfl rfl (fun _ => id) rfl id

/-- The nodes replaced as the working node number is. -/
theorem Inward.setOwnTimer (s : Part) (t : Option Nat) : Inward s { s with relay := { s.relay with ownTimer := t } } :=
  .of_relay (fun _ => ⟨id, id⟩) id rfl rfl rfl (fun _ => id) rfl id

theorem Inward.setOwnQ (s : Part) (p : Port) (q : List OwnEntry) (h : (s.ownQ p).length ≤ 8 → q.length ≤ 8) :
    Inward s (s.setOwnQ p q) := by
  refine .of_relay (fun _ => ⟨id, id⟩) id rfl rfl rfl (fun r => ?_) rfl id
  rcases port_cases p r with rfl | rfl
  · rw [setOwnQ_ownQ]
    exact h
  · show _ → ((s.relay.ownQueue.set p q).get p.other).length ≤ 8
    rw [get_set_other]
    exact id

theorem Inward.setPower (s : Part) (p : Power) (h : p.stage = s.power.stage) : Inward s (s.setPower p) :=
  .of_eq rfl rfl h rfl rfl

theorem Inward.setGauge (s : Part) (g : Fin 4) (r : Gauge) : Inward s (s.setGauge g r) := .of_eq rfl rfl rfl rfl rfl

theorem Inward.setTables (s : Part) (t : Tables) : Inward s (s.setTables t) := .of_eq rfl rfl rfl rfl rfl

/-- A condition raised or cleared, unless it is QUEUE_LOSS that is cleared (10: R176). -/
theorem Inward.setCond (c : Cond) (b : Bool) (s : Part) (h : c = .queueLoss → b = true) :
    Inward s (setCond c b s) := by
  have mark : Inward s (s.markActive c b) := by
    refine .of_relay (fun _ => ⟨id, id⟩) id rfl rfl rfl (fun _ => id) rfl fun active => ?_
    by_cases e : c = .queueLoss
    · subst e
      rw [markActive_active, h rfl]
    · show (putBit s.mgmt.active c.num b).getLsbD Cond.queueLoss.num = true
      rw [putBit_getLsbD _ _ _ _ Cond.queueLoss.num_lt, if_neg fun n => e (Cond.num_inj n.symm)]
      exact active
  unfold Machine.setCond
  refine .ite (.refl s) (mark.trans (.ite (.refl _) ?_))
  exact .of_reaction ((Reaction.setChanged _ _).trans (.oweNotice c _))

/-! ### Replies on their way -/

theorem Inward.queueOwn (e : OwnEntry) (s : Part) (p : Port) : Inward s (queueOwn e s p) :=
  .of_reaction (.queueOwn e s p)

theorem Inward.setHold (s : Part) (h : List Reply) : Inward s (s.setHold h) := .of_eq rfl rfl rfl rfl rfl

theorem Inward.handHeldFrom (rs : List Reply) (s : Part) : Inward s (handHeldFrom rs s) := by
  induction rs generalizing s with
  | nil => exact .setHold ..
  | cons r rs ih => exact .ite (.setHold ..) ((Inward.queueOwn _ s _).trans (ih _))

theorem Inward.discardOwn (p : Port) (s : Part) : Inward s (discardOwn p s) := by
  have empty := Inward.setOwnQ s p [] fun _ => Nat.zero_le _
  exact .ite (empty.trans (.handHeldFrom _ _)) empty

theorem Inward.answerRequest (q : Request) (a : Answer) (s : Part) : Inward s (answerRequest q a s) :=
  .of_reaction (.answerRequest q a s)

theorem Inward.answerPlain (q : Request) (st : Status) (s : Part) : Inward s (answerPlain q st s) :=
  .answerRequest ..

theorem Inward.answerSleep (st : Status) (s : Part) : Inward s (answerSleep st s) := .of_reaction (.answerSleep st s)

theorem Inward.setMgmt (s : Part) (m : Mgmt) (node : m.node = s.mgmt.node) (active : m.active = s.mgmt.active) :
    Inward s { s with mgmt := m } := .of_eq rfl rfl rfl node active

theorem Inward.finish (s : Part) : Inward s (finish s) := .of_reaction (.finish s)

theorem Inward.handMode (m : Mode) (s : Part) : Inward s (handMode m s) := .of_reaction (.handMode m s)

theorem Inward.syncConds (s : Part) : Inward s (syncConds s) := .of_reaction (.syncConds s)

/-! ### Changes of the link -/

theorem Inward.followRoom (s : Part) : Inward s (followRoom s) := .ite (.setCond _ _ _ nofun) (.refl s)

theorem Inward.followLink (s : Part) : Inward s (followLink s) := by
  obtain ⟨t, reaction, e⟩ := followLink_reaction s
  rw [e]
  have fresh : Inward s (followFreshness s) := .of_eq rfl rfl rfl rfl rfl
  exact (fresh.trans (.of_reaction reaction)).trans (.followRoom t)

theorem Inward.abortTx (p : Port) (s : Part) : Inward s (abortTx p s) := by
  unfold Machine.abortTx
  split
  · exact .ite ((Inward.setTx ..).trans (.setRx _ _ _ id nofun)) (.setTx ..)
  all_goals exact .refl s

theorem Inward.placePort (p : Port) (r : PortRec) (s : Part)
    (take : r.rx.take = .reserved → (s.port p).rx.take = .reserved)
    (relay : r.rx.relay = .reserved → (s.port p).rx.relay = .reserved) : Inward s (placePort p r s) := by
  have put := Inward.setPort s p r take relay
  exact .ite (put.trans (.abortTx p _)) put

theorem Inward.writePort (p : Port) (r : PortRec) (s : Part) (same : r.rx = (s.port p).rx) :
    Inward s (writePort p r s) :=
  (Inward.placePort p r s (by rw [same]; exact id) (by rw [same]; exact id)).trans
    (.of_reaction (writePort_reaction p r s).2)

theorem Inward.takeReframe (p : Port) (s : Part) : Inward s (takeReframe p s) := by
  have same : (s.port p).reframed.rx = (s.port p).rx := rfl
  unfold Machine.takeReframe
  exact .ite ((Inward.writePort p _ s same).trans (.followLink _)) (.refl s)

theorem Inward.requestReframe (p : Port) (s : Part) : Inward s (requestReframe p s) := by
  have ask : Inward s (s.setPort p { s.port p with reframe := true }) := .setPort s p _ id id
  unfold Machine.requestReframe
  dsimp only
  split
  · exact ask.trans (.takeReframe p _)
  · exact ask.trans (.takeReframe p _)
  · exact ask
  · exact ask

/-! ### The node table -/

theorem Inward.learn (source kind : Nat) (p : Port) (s : Part) : Inward s (learn source kind p s) := by
  unfold Machine.learn
  split
  · exact .setOwnTimer ..
  · rename_i ne
    split
    · rename_i e known
      exact .setNodes s _ fun h => h.putNode_known (findNode_some known).1 (learned_node e kind p).symm
    · exact .ite (.setNodes s _ fun h => h.addNode ne fun x => replaceable_mem) (.setCond _ _ s nofun)

theorem Inward.takePin (s : Part) (c : PinCfg) : Inward s (takePin s c) := by
  unfold Machine.takePin
  split
  · exact .refl s
  · rename_i other
    split
    · rename_i e known
      exact .setNodes s _ fun h => h.putNode_known (findNode_some known).1 (x := e) rfl
    · exact .setNodes s _ fun h => h.addNode (e := NodeEntry.ofPin c) (fun own => other (.inr own)) fun x old =>
        (List.mem_filter.1 (oldest_some old).1).1

theorem Inward.unpin (test : Nat → Bool) (s : Part) : Inward s (unpin test s) :=
  .setNodes s _ fun h => h.map _ fun e => by split <;> rfl

theorem Inward.applyPins (s : Part) : Inward s (applyPins s) :=
  (Inward.unpin _ s).trans (.foldl (fun s c => .takePin s c) _ _)

theorem Inward.rewritePin (old new : PinCfg) (s : Part) : Inward s (rewritePin old new s) :=
  Inward.trans (.ite (.refl s) (.unpin _ s)) (.takePin _ new)

theorem Inward.clearDuplicate (n : Nat) (s : Part) : Inward s (clearDuplicate n s) :=
  .setNodes s _ fun h => h.map _ fun e => by split <;> rfl

theorem Inward.ageNodes (s : Part) : Inward s (ageNodes s) := .setNodes s _ fun h => h.map _ fun _ => rfl

/-- A new working node number goes with the removal of its entry (02: R31). -/
theorem Inward.renumber (n : Nat) (s : Part) :
    Inward s (renumber s.mgmt.node { s with mgmt := { s.mgmt with node := n } }) := by
  have dropped : Inward s { s with
      mgmt := { s.mgmt with node := n }
      relay := { s.relay with nodes := dropNode n s.relay.nodes, ownTimer := none } } :=
    .of_relay (fun _ => ⟨id, id⟩) (fun h =>
      { room := (h.dropNode n).room, order := (h.dropNode n).order, others := fun e he => (mem_dropNode.1 he).2 })
      rfl rfl rfl (fun _ => id) rfl id
  exact dropped.trans (.foldl (fun s c => .takePin s c) _ _)

end Sys2Proof.Machine
end

section
/-! The symbols, the transmitters and the frame relay keep the node table and the queues' places. -/

namespace Sys2Proof.Machine

/-! ### Frames that end -/

theorem Inward.clearRx (p : Port) (s : Part) : Inward s (clearRx p s) := .unreserve s p _ rfl rfl

theorem Inward.onCut (p : Port) (f : TxFrame → TxFrame) (s : Part) : Inward s (onCut p f s) := by
  unfold Machine.onCut
  split
  · exact .setTx ..
  all_goals exact .refl s

theorem Inward.spoilRelay (p : Port) (x : Rx) (s : Part) : Inward s (spoilRelay p x s) :=
  .ite (.onCut p _ s) (.refl s)

theorem Inward.dropFragment (p : Port) (s : Part) : Inward s (dropFragment p s) :=
  (Inward.clearRx p s).trans (.count _ p _)

theorem Inward.dropAborted (p : Port) (s : Part) : Inward s (dropAborted p s) :=
  ((Inward.clearRx p s).trans (.count _ p _)).trans (.spoilRelay p _ _)

theorem Inward.dropFrame (p : Port) (s : Part) : Inward s (dropFrame p s) := by
  unfold Machine.dropFrame
  split
  · exact .clearRx p s
  · exact .clearRx p s
  · exact .dropFragment p s
  · exact .dropAborted p s

theorem Inward.endBad (p : Port) (phase : RxPhase) (alternate : Bool) (s : Part) :
    Inward s (endBad p phase alternate s) := by
  have counted : Inward s (countBad p phase s) := (Inward.unreserve s p _ rfl rfl).trans (.count _ p _)
  have same : (((s.port p).badEnd phase).afterBad alternate).rx = ((countBad p phase s).port p).rx := by
    rw [countBad_port]
    exact (afterBad_rest _ _).rx
  rw [endBad_eq]
  exact (((counted.trans (.writePort p _ _ same)).trans (.spoilRelay p _ _)).trans (.followLink _)).trans
    (.takeReframe p _)

theorem Inward.onQuiet (p : Port) (s : Part) : Inward s (onQuiet p s) := by
  have idle : (s.port p).fallen.rx = Rx.idle := dropped_rx _
  have fallen : Inward (Machine.dropFrame p s) (Machine.placePort p (s.port p).fallen (Machine.dropFrame p s)) :=
    .placePort p _ _ (by rw [idle]; exact TakeCopy.noConfusion) (by rw [idle]; exact RelayCopy.noConfusion)
  rw [onQuiet_eq]
  exact (((((Inward.dropFrame p s).trans fallen).trans (.discardOwn p _)).trans (.syncConds _)).trans
    (.takeReframe p _)).trans (.followLink _)

/-! ### A good frame -/

section
variable {p : Port} {x : Rx} (s : Part)

theorem settleTake_reserved (h : x.take = .reserved) : settleTake p x s =
    (s.setRxQ p (s.rxQ p ++ [x.entry p (s.relay.lossPending.get p)])).setLoss p false := by
  unfold settleTake
  rw [h]

theorem settleTake_noPlace (h : x.take = .noPlace) : settleTake p x s =
    (s.count p fun c => { c with refused := bump16 c.refused }).setLoss p true := by
  unfold settleTake
  rw [h]

theorem settleTake_none (h : x.take = .none) : settleTake p x s = s := by
  unfold settleTake
  rw [h]

theorem settleRelay_reserved (h : x.relay = .reserved) : settleRelay p x s = s.setRelayQ p
    (s.relayQ p ++ [{ header := rewriteRoute (x.bytes.take 4), payload := x.payload, waited := 0 }]) := by
  unfold settleRelay
  rw [h]

theorem settleRelay_cutThrough (h : x.relay = .cutThrough) : settleRelay p x s =
    onCut p (fun t => { t with payload := x.payload, complete := true }) s := by
  unfold settleRelay
  rw [h]

theorem settleRelay_none (h : x.relay = .none) : settleRelay p x s = s := by
  unfold settleRelay
  rw [h]

end

/-- The take copy of a good frame is a matter of its own receive queue, loss mark and counters. -/
theorem settleTake_frame (p : Port) (x : Rx) (s : Part) :
    (settleTake p x s).rxQ p.other = s.rxQ p.other ∧ (∀ q, (settleTake p x s).relayQ q = s.relayQ q) ∧
    (settleTake p x s).port p.other = s.port p.other ∧ ((settleTake p x s).port p).rx = (s.port p).rx ∧
    (settleTake p x s).relay.nodes = s.relay.nodes ∧ (settleTake p x s).relay.ownTimer = s.relay.ownTimer ∧
    (settleTake p x s).relay.ownQueue = s.relay.ownQueue ∧ (settleTake p x s).power = s.power ∧
    (settleTake p x s).mgmt = s.mgmt := by
  cases h : x.take with
  | none =>
    rw [settleTake_none s h]
    exact ⟨rfl, fun _ => rfl, rfl, rfl, rfl, rfl, rfl, rfl, rfl⟩
  | reserved =>
    rw [settleTake_reserved s h]
    exact ⟨get_set_other .., fun _ => rfl, rfl, rfl, rfl, rfl, rfl, rfl, rfl⟩
  | noPlace =>
    rw [settleTake_noPlace s h]
    refine ⟨rfl, fun _ => rfl, setPort_other .., ?_, rfl, rfl, rfl, rfl, rfl⟩
    have counted := congrArg PortRec.rx (count_port s p fun c => { c with refused := bump16 c.refused })
    exact counted

/-- The relay copy of a good frame is a matter of its relay queue or of the other port's transmitter. -/
theorem settleRelay_frame (p : Port) (x : Rx) (s : Part) :
    (∀ q, (settleRelay p x s).rxQ q = s.rxQ q) ∧ (settleRelay p x s).relayQ p.other = s.relayQ p.other ∧
    ((settleRelay p x s).port p.other).rx = (s.port p.other).rx ∧ (settleRelay p x s).port p = s.port p ∧
    (settleRelay p x s).relay.nodes = s.relay.nodes ∧ (settleRelay p x s).relay.ownTimer = s.relay.ownTimer ∧
    (settleRelay p x s).relay.ownQueue = s.relay.ownQueue ∧ (settleRelay p x s).power = s.power ∧
    (settleRelay p x s).mgmt = s.mgmt ∧ (settleRelay p x s).relay.lossPending = s.relay.lossPending := by
  cases h : x.relay with
  | none =>
    rw [settleRelay_none s h]
    exact ⟨fun _ => rfl, rfl, rfl, rfl, rfl, rfl, rfl, rfl, rfl, rfl⟩
  | reserved =>
    rw [settleRelay_reserved s h]
    exact ⟨fun _ => rfl, get_set_other .., rfl, rfl, rfl, rfl, rfl, rfl, rfl, rfl⟩
  | cutThrough =>
    rw [settleRelay_cutThrough s h]
    have rx : ∀ t, ((s.setTx p.other t).port p.other).rx = (s.port p.other).rx := fun t => by
      unfold Part.setTx
      rw [setPort_port]
    unfold onCut
    split
    · exact ⟨fun _ => rfl, rfl, rx _, setPort_other' .., rfl, rfl, rfl, rfl, rfl, rfl⟩
    all_goals exact ⟨fun _ => rfl, rfl, rfl, rfl, rfl, rfl, rfl, rfl, rfl, rfl⟩

theorem settleTake_length (p : Port) (x : Rx) (s : Part) :
    ((settleTake p x s).rxQ p).length = (s.rxQ p).length + if x.take = .reserved then 1 else 0 := by
  cases h : x.take with
  | none => rw [settleTake_none s h]; rfl
  | reserved =>
    rw [settleTake_reserved s h]
    show ((s.setRxQ p _).rxQ p).length = _
    rw [setRxQ_rxQ, List.length_append]
    rfl
  | noPlace => rw [settleTake_noPlace s h]; rfl

theorem settleRelay_length (p : Port) (x : Rx) (s : Part) :
    ((settleRelay p x s).relayQ p).length = (s.relayQ p).length + if x.relay = .reserved then 1 else 0 := by
  cases h : x.relay with
  | none => rw [settleRelay_none s h]; rfl
  | reserved =>
    rw [settleRelay_reserved s h, setRelayQ_relayQ, List.length_append]
    rfl
  | cutThrough =>
    rw [settleRelay_cutThrough s h]
    unfold onCut
    split <;> rfl

/-- A frame that ends good fills the places it had reserved; its assembly holds none any more (02: R32, R37). -/
theorem settleCopies_keeps {p : Port} {s t : Part} (h : Inward s t) (idle : (t.port p).rx = Rx.idle) :
    Keeps s (settleCopies p (s.port p).rx t) := by
  unfold settleCopies
  obtain ⟨rxOther, relayQ, portOther, rxSame, nodes, -, ownQueue, power, mgmt⟩ := settleTake_frame p (s.port p).rx t
  obtain ⟨rxQ', relayOther', rxOther', port', nodes', -, ownQueue', power', mgmt', -⟩ :=
    settleRelay_frame p (s.port p).rx (settleTake p (s.port p).rx t)
  have takes := settleTake_length p (s.port p).rx t
  have relays := settleRelay_length p (s.port p).rx (settleTake p (s.port p).rx t)
  refine ⟨?_, ?_, fun q => ?_, fun q => ?_, fun q => ?_⟩
  · rw [power', power]
    exact h.stage
  · rw [nodes', mgmt', nodes, mgmt]
    exact h.table
  · rcases port_cases p q with rfl | rfl
    · unfold Part.rxPlaces
      rw [rxQ', takes, port', rxSame, idle, h.rxQ]
      exact id
    · have := h.rx p.other
      unfold Part.rxPlaces at this ⊢
      rw [rxQ', rxOther, rxOther', portOther]
      exact this
  · rcases port_cases p q with rfl | rfl
    · unfold Part.relayPlaces
      rw [relays, relayQ, port', rxSame, idle, h.relayQ]
      exact id
    · have := h.relay p.other
      unfold Part.relayPlaces at this ⊢
      rw [relayOther', relayQ, rxOther', portOther]
      exact this
  · have := h.own q
    unfold Part.ownQ at this ⊢
    rw [ownQueue', ownQueue]
    exact this

theorem Inward.writeGood (p : Port) (s : Part) : Inward s (writeGood p s) := by
  refine (Inward.clearRx p s).trans (.writePort p _ _ ?_)
  rw [clearRx_port]
  exact (afterGood_rest _).rx

theorem writeGood_rx (p : Port) (s : Part) : ((writeGood p s).port p).rx = Rx.idle :=
  (core_rx (writePort_core ..)).trans (afterGood_rest _).rx

theorem Keeps.endGood (p : Port) (s : Part) : Keeps s (endGood p s) := by
  rw [endGood_eq]
  exact (settleCopies_keeps (.writeGood p s) (writeGood_rx p s)).trans
    (((Inward.learn _ _ p _).trans (.followLink _)).trans (.takeReframe p _)).toKeeps

/-! ### Symbols -/

theorem Inward.hear (p : Port) (s : Part) : Inward s (hear p s) := by
  have rx : (s.port p).heard.rx = (s.port p).rx := heard_rx _
  have put : Inward s (s.setPort p (s.port p).heard) :=
    .setPort s p _ (by rw [rx]; exact id) (by rw [rx]; exact id)
  exact put.trans (.setTx ..)

theorem Keeps.onStart (p : Port) (s : Part) : Keeps s (onStart p s) :=
  (((Inward.dropFrame p s).trans (.takeReframe p _)).trans (.unreserve _ p _ rfl rfl)).toKeeps

/-- Header time reserves a place only where one is free (02: R32, R37). -/
theorem Keeps.headerTime (p : Port) (s : Part) : Keeps s (headerTime p s) := by
  have reserve : ∀ x : Rx, (x.take = .reserved → (s.rxQ p).length < 8) →
      (x.relay = .reserved → (s.relayQ p).length < 6) → Keeps s (s.setRx p x) := by
    intro x take relay
    refine ⟨rfl, id, fun q => ?_, fun q => ?_, fun _ => id⟩
    · rcases port_cases p q with rfl | rfl
      · unfold Part.rxPlaces
        rw [setRx_port]
        intro held
        show (s.rxQ q).length + (if x.take = .reserved then 1 else 0) ≤ 8
        split
        · exact take ‹_›
        · omega
      · unfold Part.rxPlaces Part.setRx
        rw [setPort_other]
        exact id
    · rcases port_cases p q with rfl | rfl
      · unfold Part.relayPlaces
        rw [setRx_port]
        intro held
        show (s.relayQ q).length + (if x.relay = .reserved then 1 else 0) ≤ 6
        split
        · exact relay ‹_›
        · omega
      · unfold Part.relayPlaces Part.setRx
        rw [setPort_other]
        exact id
  have takes : ∀ b, s.takeCopy p b = .reserved → (s.rxQ p).length < 8 := by
    intro b h
    unfold Part.takeCopy at h
    split at h
    · cases h
    · split at h
      · assumption
      · cases h
  have relays : ∀ b, s.relayCopy p b = .reserved → (s.relayQ p).length < 6 := by
    intro b h
    unfold Part.relayCopy at h
    split at h
    · cases h
    · split at h
      · cases h
      · split at h
        · assumption
        · cases h
  unfold Machine.headerTime
  dsimp only
  have reserved := reserve { (s.port p).rx with
    phase := .body, take := s.takeCopy p (s.fate p (at1 (s.port p).rx.bytes 0) (at1 (s.port p).rx.bytes 1)).take
    relay := s.relayCopy p (s.fate p (at1 (s.port p).rx.bytes 0) (at1 (s.port p).rx.bytes 1)).relay
    mode := (s.port p).mode } (takes _) (relays _)
  split
  · exact reserved.trans (Inward.setTx ..).toKeeps
  · split
    · exact reserved.trans (Inward.count ..).toKeeps
    · exact reserved

theorem Keeps.takeNibble (p : Port) (n : Nibble) (s : Part) : Keeps s (takeNibble p n s) := by
  cases h : (s.port p).rx.half with
  | none =>
    rw [takeNibble_first n h]
    have half : Inward s (s.setRx p { (s.port p).rx with half := some n }) := .setRx s p _ id id
    exact half.toKeeps
  | some m =>
    rw [takeNibble_second n h]
    have add : Inward s (addByte p (m ++ n) s) := .setRx s p _ id id
    split
    · exact (add.trans (.ite (.onCut ..) (.refl _))).toKeeps
    · split
      · exact add.toKeeps.trans (.headerTime p _)
      · exact add.toKeeps

theorem Keeps.onData (p : Port) (n : Nibble) (s : Part) : Keeps s (onData p n s) := by
  rcases onData_cases p n s with e | e | e <;> rw [e]
  · exact .refl s
  · exact .takeNibble p n s
  · exact (Inward.endBad ..).toKeeps

theorem Keeps.breakFrame (p : Port) (isEnd : Bool) (s : Part) : Keeps s (breakFrame p isEnd s) := by
  unfold Machine.breakFrame
  split
  · exact .refl s
  · exact (Inward.ite (.clearRx p s) (.refl s)).toKeeps
  · exact ((Inward.dropFragment p s).trans (.takeReframe p _)).toKeeps
  · exact ((Inward.dropAborted p s).trans (.takeReframe p _)).toKeeps

theorem Keeps.onBreak (p : Port) (s : Part) : Keeps s (onBreak p s) := by
  rw [onBreak_eq]
  exact .breakFrame p false s

theorem Keeps.onEnd (p : Port) (s : Part) : Keeps s (onEnd p s) := by
  by_cases body : (s.port p).rx.phase = .body
  · rw [onEnd_body body]
    by_cases good : (s.port p).isGood
    · rw [endFrame_good good]
      exact .endGood p s
    · rw [endFrame_bad good]
      exact (Inward.endBad ..).toKeeps
  · rw [onEnd_break body]
    exact .breakFrame p true s

theorem Inward.wakeByLine (s : Part) : Inward s (wakeByLine s) := by
  have woken : Inward s { s with ports := ⟨s.ports.front.woken, s.ports.rear.woken⟩ } :=
    .setPorts s _ fun p => by cases p <;> exact .inr rfl
  have roused : Inward s s.roused := woken.trans (.setPower _ { s.power with mode := .dormant } rfl)
  exact roused.trans (.handMode _ _)

/-! ### Transmitters and relay queues -/

theorem takeFirst_length {α : Type} {test : α → Bool} {xs : List α} {r : α × List α} (h : takeFirst test xs = some r) :
    r.2.length < xs.length := by
  induction xs generalizing r with
  | nil => cases h
  | cons x xs ih =>
    unfold takeFirst at h
    split at h
    · cases h
      exact Nat.lt_succ_self _
    · obtain ⟨y, hy, rfl⟩ := Option.map_eq_some_iff.1 h
      exact Nat.succ_lt_succ (ih hy)

theorem Inward.startOwn (p : Port) (e : OwnEntry) (rest : List OwnEntry) (s : Part)
    (h : rest.length ≤ (s.ownQ p).length) : Inward s (startOwn p e rest s) := by
  have sent : ∀ f, Inward s ((s.setOwnQ p rest).setTx p f) := fun f =>
    (Inward.setOwnQ s p rest (Nat.le_trans h)).trans (.setTx ..)
  exact .ite ((sent _).trans (.handHeldFrom _ _)) (sent _)

/-- An entry that leaves a relay queue frees its place. -/
theorem Keeps.setRelayQ (s : Part) (p : Port) (q : List RelayEntry) (h : q.length ≤ (s.relayQ p).length) :
    Keeps s (s.setRelayQ p q) := by
  refine ⟨rfl, id, fun _ => id, fun r => ?_, fun _ => id⟩
  unfold Part.relayPlaces
  rcases port_cases p r with rfl | rfl
  · rw [setRelayQ_relayQ]
    exact fun held => Nat.le_trans (Nat.add_le_add_right h _) held
  · rw [show (s.setRelayQ p q).relayQ p.other = s.relayQ p.other from get_set_other ..]
    exact id

theorem Keeps.setRxQ (s : Part) (p : Port) (q : List RxEntry) (h : q.length ≤ (s.rxQ p).length) :
    Keeps s (s.setRxQ p q) := by
  refine ⟨rfl, id, fun r => ?_, fun _ => id, fun _ => id⟩
  unfold Part.rxPlaces
  rcases port_cases p r with rfl | rfl
  · rw [setRxQ_rxQ]
    exact fun held => Nat.le_trans (Nat.add_le_add_right h _) held
  · rw [show (s.setRxQ p q).rxQ p.other = s.rxQ p.other from get_set_other ..]
    exact id

theorem Keeps.chooseFrame (p : Port) (s : Part) : Keeps s (chooseFrame p s) := by
  unfold Machine.chooseFrame
  split
  · rename_i e rest first
    exact (Inward.startOwn p e rest s (Nat.le_of_lt (takeFirst_length first))).toKeeps
  · split
    · rename_i e rest relayed
      exact (Keeps.setRelayQ s p.other rest (by rw [relayed]; exact Nat.le_succ _)).trans (Inward.setTx ..).toKeeps
    · split
      · rename_i e rest own
        exact (Inward.startOwn p e rest s (by rw [own]; exact Nat.le_succ _)).toKeeps
      · exact (Inward.setTx ..).toKeeps

theorem Inward.finishFrame (p : Port) (f : TxFrame) (s : Part) : Inward s (finishFrame p f s) := by
  have ended : ∀ sent, Inward s (endTx p sent s) := fun sent => .setPort s p _ id id
  by_cases abort : f.abort = none
  · cases whole : f.complete with
    | true =>
      rw [finishFrame_end p s abort whole]
      exact (ended _).trans (.ite (.of_eq rfl rfl rfl rfl rfl) (.refl _))
    | false =>
      rw [finishFrame_wait p s abort whole]
      exact .refl s
  · rw [finishFrame_abort p s abort]
    have drop : ∀ t, Inward t (dropSent f t) := fun t => by
      unfold dropSent
      split
      · split
        · exact .count ..
        · exact .count ..
        all_goals exact .refl t
      · exact .refl t
    exact (ended _).trans (drop _)

theorem Keeps.ageOut (p : Port) (s : Part) : Keeps s (ageOut p s) := by
  unfold Machine.ageOut
  split
  · exact .refl s
  · rename_i e q relayed
    exact (Keeps.setRelayQ s p q (by rw [relayed]; exact Nat.le_succ _)).trans
      ((Inward.count _ p _).trans (.setCond _ _ _ fun _ => rfl)).toKeeps

end Sys2Proof.Machine
end

section
/-! The management unit and the power manager keep the node table and the queues' places. -/

namespace Sys2Proof.Machine

/-! ### Writes of table entries (10: R168) -/

/-- What an accepted write keeps. -/
def Written.inward (s : Part) (w : Written) : Prop := ∀ t, w = .ok t → Inward s t

theorem acceptIf_inward {s t : Part} (test : Bool) (h : Inward s t) : Written.inward s (acceptIf test t) := by
  intro u hu
  unfold acceptIf at hu
  split at hu
  · cases hu
    exact h
  · cases hu

theorem withEntry_inward {α : Type} {s : Part} {c : Option α} {f : α → Written} (h : ∀ x, Written.inward s (f x)) :
    Written.inward s (withEntry c f) := by
  intro t ht
  unfold withEntry at ht
  split at ht
  · cases ht
  · exact h _ t ht

theorem withIndex_inward {n i : Nat} {s : Part} {f : Fin n → Written} (h : ∀ k, Written.inward s (f k)) :
    Written.inward s (withIndex n i f) := by
  intro t ht
  unfold withIndex at ht
  split at ht
  · cases ht
  · exact h _ t ht

theorem Inward.writeLock (p : Port) (l : CheckLock) (s : Part) : Inward s (writeLock p l s) :=
  .ite (.refl s) (Inward.trans (.setPort s p { s.port p with heldLock := some l } id id) (.requestReframe p _))

theorem Inward.dropOwed (s : Part) : Inward s (dropOwed s) := .ite (.setMgmt s _ rfl rfl) (.refl s)

theorem writeLink_inward (bs : List Byte) (s : Part) : Written.inward s (writeLink bs s) :=
  withEntry_inward fun _ => acceptIf_inward _
    ((((Inward.setTables s _).trans (.dropOwed _)).trans (.writeLock .front _ _)).trans (.writeLock .rear _ _))

theorem writePin_inward (i : Fin 8) (bs : List Byte) (s : Part) : Written.inward s (writePin i bs s) :=
  withEntry_inward fun _ => acceptIf_inward _
    (((Inward.setTables s _).trans (.rewritePin _ _ _)).trans (.followLink _))

theorem writeMap_inward (i : Fin 32) (bs : List Byte) (s : Part) : Written.inward s (writeMap i bs s) := by
  have input : ∀ (t : Part) (j : Fin 32) (x : Input), Inward t (t.setInput j x) := fun t j x =>
    .of_eq rfl rfl rfl rfl rfl
  have map : ∀ (old new : MapCfg) (t : Part), Inward t (remap old new t) := fun old new t => by
    have freed : ∀ c : Prop, [Decidable c] → Inward t (if c then t.setInput old.input Input.cleared else t) :=
      fun c _ => .ite (input ..) (.refl t)
    unfold remap
    dsimp only
    exact .ite (freed _) (.ite ((freed _).trans (input ..)) ((freed _).trans (input ..)))
  exact withEntry_inward fun _ => acceptIf_inward _
    (((Inward.setTables s _).trans (map _ _ _)).trans (.of_reaction (.deliverNotice s _)))

theorem writeChan_inward (ch : Fin 25) (bs : List Byte) (s : Part) : Written.inward s (writeChan ch bs s) := by
  have apply : ∀ c, Inward s (applyChan ch c s) := fun c => by
    have rebuilt := fun t => (Inward.setTables s t).trans (.of_reaction (.rebuildRecords _))
    exact .ite ((rebuilt _).trans (.of_reaction (.claimChan ch _))) (rebuilt _)
  intro t ht
  unfold writeChan at ht
  split at ht
  · split at ht
    · cases ht
    · exact withEntry_inward (fun _ => acceptIf_inward _ (apply _)) t ht
  · cases ht

theorem writeFan_inward (bs : List Byte) (s : Part) : Written.inward s (writeFan bs s) := by
  intro t ht
  unfold writeFan at ht
  split at ht
  · cases ht
  · exact withEntry_inward
      (fun _ => acceptIf_inward _ ((Inward.setTables s _).trans (.of_reaction (.selectFan _)))) t ht

theorem writeGauge_inward (g : Fin 4) (bs : List Byte) (s : Part) : Written.inward s (writeGauge g bs s) := by
  intro t ht
  unfold writeGauge at ht
  dsimp only at ht
  split at ht
  · cases ht
  · exact withEntry_inward (fun _ => acceptIf_inward _
      (((Inward.setTables s _).trans (.setGauge _ g _)).trans (.of_reaction (.startTest _ g)))) t ht

theorem Inward.followCharging (s : Part) : Inward s (followCharging s) := .setPower s _ rfl

theorem writePower_inward (bs : List Byte) (s : Part) : Written.inward s (writePower bs s) :=
  withEntry_inward fun _ => acceptIf_inward _
    (((Inward.setTables s _).trans (.followCharging _)).trans (.of_reaction (.selectLimit _)))

theorem Inward.setRules (s : Part) (t : Tables) : Inward s (evaluate (s.setTables t)) :=
  (Inward.setTables s t).trans (.of_reaction (.evaluate _))

theorem writeRule_inward (i : Fin 32) (bs : List Byte) (s : Part) : Written.inward s (writeRule i bs s) := by
  unfold writeRule
  exact withEntry_inward fun c => acceptIf_inward _ (.setRules s { s.tables with rules := put s.tables.rules i c })

theorem writeAdopt_inward (i : Fin 4) (bs : List Byte) (s : Part) : Written.inward s (writeAdopt i bs s) := by
  unfold writeAdopt
  exact acceptIf_inward _ (.setTables s { s.tables with adopt := put s.tables.adopt i (at1 bs 0) })

theorem writePoint_inward (i : Fin 32) (bs : List Byte) (s : Part) : Written.inward s (writePoint i bs s) := by
  unfold writePoint
  exact acceptIf_inward _ (.setTables s { s.tables with curves := put s.tables.curves i (decodePoint bs) })

theorem writeSetup_inward (bs : List Byte) (s : Part) : Written.inward s (writeSetup bs s) := by
  unfold writeSetup
  refine withEntry_inward fun c t ht => ?_
  cases ht
  exact .setRules s { s.tables with dimmer := c }

/-- One entry written, whatever its table. -/
theorem writeEntry_inward (table i : Nat) (bs : List Byte) (s : Part) : Written.inward s (writeEntry table i bs s) := by
  have sync : ∀ w : Written, Written.inward s w → Written.inward s (w.map syncConds) := fun w h t ht => by
    cases w with
    | error st => cases ht
    | ok u =>
      cases ht
      exact (h u rfl).trans (.syncConds u)
  unfold writeEntry
  dsimp only
  refine sync _ ?_
  split
  · exact writeLink_inward bs s
  · exact withIndex_inward fun k => writePin_inward k bs s
  · exact withIndex_inward fun k => writeAdopt_inward k bs s
  · exact withIndex_inward fun k => writeMap_inward k bs s
  · exact withIndex_inward fun k => writeChan_inward k bs s
  · exact withIndex_inward fun k => writeRule_inward k bs s
  · exact writeFan_inward bs s
  · exact withIndex_inward fun k => writeGauge_inward k bs s
  · exact withIndex_inward fun k => writePoint_inward k bs s
  · exact writePower_inward bs s
  · exact writeSetup_inward bs s
  · intro t refused
    cases refused

theorem Inward.writeEntries (table size n i : Nat) (bs : List Byte) (s : Part) :
    Inward s (writeEntries table size n i bs s).1 := by
  induction n generalizing i bs s with
  | zero => exact .refl s
  | succ n ih =>
    unfold Machine.writeEntries
    split
    · exact .refl s
    · rename_i t accepted
      exact (writeEntry_inward table i _ s t accepted).trans (ih ..)

/-! ### The ops (10: R167 to R177) -/

theorem Inward.setWindow (table index : Nat) (s : Part) : Inward s (setWindow table index s) := .setMgmt s _ rfl rfl

theorem Inward.doRead (q : Request) (s : Part) : Inward s (doRead q s) := by
  unfold Machine.doRead
  split
  · exact .answerPlain ..
  · exact .answerRequest ..

theorem Inward.doSelect (q : Request) (s : Part) : Inward s (doSelect q s) := by
  unfold Machine.doSelect
  split
  · exact .answerPlain ..
  · exact (Inward.setWindow ..).trans (.answerPlain ..)

theorem Inward.doReadNext (q : Request) (s : Part) : Inward s (doReadNext q s) := by
  unfold Machine.doReadNext
  dsimp only
  split
  · exact .answerPlain ..
  · exact (Inward.setWindow ..).trans (.answerRequest ..)

theorem Inward.doWriteAt (table index : Nat) (moves : Bool) (q : Request) (s : Part) :
    Inward s (doWriteAt table index moves q s) := by
  unfold Machine.doWriteAt
  split
  · exact .answerPlain ..
  · dsimp only
    have written := Inward.writeEntries table (entrySize table) (q.data.length / entrySize table) index q.data s
    exact Inward.trans (.ite (written.trans (.setWindow ..)) written) (.answerRequest ..)

theorem Inward.setArbiter (s : Part) (a : Arbiter) : Inward s (s.setArbiter a) := .of_eq rfl rfl rfl rfl rfl

theorem Inward.takeHold (s : Part) : Inward s (takeHold s) := by
  have lit := (Inward.answerSleep .refused s).trans (.of_reaction (.lightTxs _))
  have held : ∀ t : Part, Inward t (t.setPower { t.power with
      mode := Mode.held, deferral := false, quiet := none, reference := true, interval := t.heldInterval }) :=
    fun t => .setPower t _ rfl
  have cleared := ((lit.trans (held _)).trans (.setArbiter _ Arbiter.empty)).trans (.of_reaction (.forceOff _))
  exact ((cleared.trans (.of_reaction (.lampsHeld _))).trans (.of_reaction (.fanStopped _))).trans
    (.of_reaction (.gaugesHeld _))

theorem Inward.holdNow (q : Request) (s : Part) : Inward s (holdNow q s) :=
  Inward.trans (.ite (.refl s) (.takeHold s)) (.answerPlain ..)

theorem Inward.doHold (q : Request) (s : Part) : Inward s (doHold q s) :=
  .ite (.setMgmt s _ rfl rfl) (.holdNow q s)

theorem Inward.releaseBlocks (s : Part) : Inward s (releaseBlocks s) := by
  have locks : ∀ t, Inward t (reloadLocks t) := fun t => .setPorts t _ fun p => by cases p <;> exact .inl rfl
  have drop : ∀ (t : Part) (p : Port), Inward t (t.setOwnQ p ((t.ownQ p).filter fun e => !e.isLampCommand)) :=
    fun t p => .setOwnQ t p _ (Nat.le_trans (List.length_filter_le ..))
  have commands : ∀ t, Inward t (dropCommands t) := fun t => (drop t .front).trans (drop _ .rear)
  have inputs : ∀ t, Inward t (clearInputs t) := fun t => .of_eq rfl rfl rfl rfl rfl
  have loaded := ((((Inward.setTables s (loadedTables s.storedTables s.mgmt.node)).trans (locks _)).trans
    (commands _)).trans (.setWindow 0 0 _)).trans (.dropOwed _)
  have rebuilt := ((loaded.trans (.applyPins _)).trans (inputs _)).trans (.of_reaction (.rebuildRecords _))
  have fresh := ((rebuilt.trans (.of_reaction (.forceOff _))).trans (.of_reaction (.fanStopped _))).trans
    (.of_reaction (.gaugesFresh _))
  exact (fresh.trans (.of_reaction (.followNodes _))).trans (.followRoom _)

theorem Inward.takeRelease (s : Part) : Inward s (takeRelease s) := by
  have moded : ∀ t : Part, Inward t (t.setPower { t.power with
      mode := if t.ignition = .off then .standing else .running }) := fun t => .setPower t _ rfl
  exact ((((Inward.releaseBlocks s).trans (.followCharging _)).trans (moded _)).trans
    (.of_reaction (.foldl (fun s n => .commandNode s n) _ _))).trans (.handMode _ _)

theorem Inward.doRelease (q : Request) (s : Part) : Inward s (doRelease q s) :=
  .ite (.answerPlain ..) (.ite (.answerPlain ..) ((Inward.takeRelease s).trans (.answerPlain ..)))

theorem Inward.doCommit (q : Request) (s : Part) : Inward s (doCommit q s) :=
  .ite (.answerPlain ..) (.setMgmt s _ rfl rfl)

theorem Inward.completeCommit (q : Request) (equal : Bool) (s : Part) : Inward s (completeCommit q equal s) := by
  have deferred : ∀ t, Inward t (takeDeferred t) := fun t => by
    unfold takeDeferred
    split
    · exact .refl t
    · exact Inward.trans (.setMgmt t { t.mgmt with slot := none } rfl rfl) (.holdNow _ _)
  have ended : ∀ st, Inward s
      { s with mgmt := { s.mgmt with store := { s.mgmt.store with state := st }, commit := none } } := fun st =>
    .setMgmt s _ rfl rfl
  exact (((ended _).trans (.setCond .nvFault (!equal) _ Cond.noConfusion)).trans (.answerPlain ..)).trans (deferred _)

theorem Inward.doSleep (q : Request) (s : Part) : Inward s (doSleep q s) :=
  .ite (.answerPlain ..) (.ite (.answerPlain ..) (.of_eq rfl rfl rfl rfl rfl))

theorem Inward.doAssign (q : Request) (s : Part) : Inward s (doAssign q s) :=
  .ite (.answerPlain ..) (.ite (.answerPlain ..) (.ite (.answerPlain ..)
    (((Inward.renumber _ s).trans (.followLink _)).trans (.answerPlain ..))))

theorem Inward.doReframe (q : Request) (s : Part) : Inward s (doReframe q s) := by
  unfold Machine.doReframe
  split
  · exact (Inward.answerPlain ..).trans (.requestReframe ..)
  · exact (Inward.answerPlain ..).trans (.requestReframe ..)
  · exact .answerPlain ..

theorem Inward.doClearCounters (q : Request) (s : Part) : Inward s (doClearCounters q s) := by
  have ports : Inward s { s with ports := ⟨s.ports.front.uncounted, s.ports.rear.uncounted⟩ } :=
    .setPorts s _ fun p => by cases p <;> exact .inl rfl
  exact (ports.trans (.setMgmt _ { s.mgmt with dropped := 0 } rfl rfl)).trans (.answerPlain ..)

/-- The receive and relay queues and the turn of dispatch are left alone. -/
structure QueuesStay (s t : Part) : Prop where
  rxQueue : t.relay.rxQueue = s.relay.rxQueue
  relayQueue : t.relay.relayQueue = s.relay.relayQueue
  lastTaken : t.relay.lastTaken = s.relay.lastTaken

theorem Inward.queuesStay {s t : Part} (h : Inward s t) : QueuesStay s t := ⟨h.rxQueue, h.relayQueue, h.lastTaken⟩

theorem QueuesStay.trans {s t u : Part} (h : QueuesStay s t) (k : QueuesStay t u) : QueuesStay s u :=
  ⟨k.rxQueue.trans h.rxQueue, k.relayQueue.trans h.relayQueue, k.lastTaken.trans h.lastTaken⟩

/-- CLEAR is the one op that may clear QUEUE_LOSS (10: R177), so it is not `Inward`. -/
theorem Keeps.doClear (q : Request) (s : Part) : Keeps s (doClear q s) := by
  have flags : ∀ v w : BitVec 16, Keeps s { s with mgmt := { s.mgmt with active := v, changed := w } } := fun v w =>
    ⟨rfl, id, fun _ => id, fun _ => id, fun _ => id⟩
  exact (flags _ _).trans (Inward.answerPlain ..).toKeeps

theorem QueuesStay.doClear (q : Request) (s : Part) : QueuesStay s (doClear q s) := by
  have flags : ∀ v w : BitVec 16, QueuesStay s { s with mgmt := { s.mgmt with active := v, changed := w } } :=
    fun v w => ⟨rfl, rfl, rfl⟩
  exact (flags _ _).trans (Inward.answerPlain ..).queuesStay

/-! ### Requests -/

theorem Inward.restartIdle (s : Part) : Inward s (restartIdle s) := .of_reaction (.restartIdle s)

section
variable {permitted : Part → RxEntry → Bool} {lengthOk : Nat → Bool} {carry : Request → Part → Part}

/-- What every answer and every op keeps is kept by the whole service of a request. -/
theorem serve_keeps {R : Part → Part → Prop} (inward : ∀ {s t}, Inward s t → R s t)
    (trans : ∀ {s t u}, R s t → R t u → R s u) (h : ∀ q s, R s (carry q s)) (e : RxEntry) (s : Part) :
    R s (serve permitted lengthOk carry e s) := by
  unfold serve
  refine trans ?_ (inward (Inward.restartIdle _))
  split
  · exact inward (.setMgmt s _ rfl rfl)
  · split
    · exact inward (.answerPlain ..)
    · split
      · exact inward (.answerPlain ..)
      · exact h _ s

theorem Inward.serve (h : ∀ q s, Inward s (carry q s)) (e : RxEntry) (s : Part) :
    Inward s (serve permitted lengthOk carry e s) := serve_keeps id .trans h e s

theorem Keeps.serve (h : ∀ q s, Keeps s (carry q s)) (e : RxEntry) (s : Part) :
    Keeps s (serve permitted lengthOk carry e s) := serve_keeps (·.toKeeps) .trans h e s

theorem QueuesStay.serve (h : ∀ q s, QueuesStay s (carry q s)) (e : RxEntry) (s : Part) :
    QueuesStay s (serve permitted lengthOk carry e s) := serve_keeps (·.queuesStay) .trans h e s

end

theorem Inward.serveUnknown (e : RxEntry) (s : Part) : Inward s (serveUnknown e s) := by
  have dropped : Inward s (dropRequest s) := .setMgmt s _ rfl rfl
  exact Inward.trans (.ite dropped (.ite (.answerPlain ..) (.answerPlain ..))) (.restartIdle _)

/-! ### The frames of the other consumers -/

theorem Inward.switchReport (a : Port) (source : Nat) (payload : List Byte) (s : Part) :
    Inward s (switchReport a source payload s) := by
  have taken : Inward s (takeReports source payload s) := .of_eq rfl rfl rfl rfl rfl
  exact .ite (taken.trans (.of_reaction (.deliverNotice s _))) (.refl s)

theorem Inward.slipGauge (g : Fin 4) (k : SlipKind) (s : Part) : Inward s (slipGauge g k s) :=
  (Inward.setGauge s g _).trans (.setCond _ _ _ nofun)

theorem Inward.reportGauges (source : Nat) (payload : List Byte) (s : Part) :
    Inward s (reportGauges source payload s) := by
  have sample : ∀ g x t, Inward t (takeSample g x t) := fun g x t => by
    unfold takeSample
    dsimp only
    exact .ite (.setGauge ..) ((Inward.slipGauge g .drop t).trans (.setGauge ..))
  have gauge : ∀ t g, Inward t (reportGauge source payload t g) := fun t g => by
    unfold reportGauge
    dsimp only
    split
    · split
      · exact sample ..
      · exact .refl t
    · exact .refl t
  exact .ite (.refl s) (.foldl gauge _ s)

theorem Inward.lampReport (source : Nat) (payload : List Byte) (s : Part) :
    Inward s (lampReport source payload s) := by
  have chan : ∀ b t ch, Inward t (statusChan b t ch) := fun b t ch => by
    unfold statusChan
    split
    · exact .of_reaction (.setBulbOut ..)
    · exact .of_reaction (.setBulbOut ..)
    · exact (Inward.of_reaction (.shortChan ch t)).trans (.syncConds _)
    · exact .refl t
  exact .ite (.refl s) ((Inward.of_reaction (.onLampNode s _ _)).trans (.foldl (chan _) _ _))

theorem Inward.discardEntry (e : RxEntry) (s : Part) : Inward s (discardEntry e s) := .count ..

/-- The entry taken frees its place (02: R32). -/
theorem Keeps.takeEntry (s : Part) : Keeps s (takeEntry s) := by
  have popped : Keeps s s.popped := by
    obtain ⟨stage, table, rx, relay, own⟩ := Keeps.setRxQ s s.nextQueue (s.rxQ s.nextQueue).tail (by simp)
    exact ⟨stage, table, rx, relay, own⟩
  unfold Machine.takeEntry
  dsimp only
  split
  · exact popped.trans (Inward.setCond _ _ _ fun _ => rfl).toKeeps
  · exact popped

end Sys2Proof.Machine
end

section
/-! Every step keeps the laws of the node table and of the queues' places (02: R25, R32, R37, R40). -/

namespace Sys2Proof.Machine

/-! ### Events -/

/-- What every event keeps: the laws of the node table and of the queues. -/
def KeepsLaws (s t : Part) : Prop := (s.nodesOk → t.nodesOk) ∧ (s.queuesOk → t.queuesOk)

theorem KeepsLaws.refl (s : Part) : KeepsLaws s s := ⟨id, id⟩

theorem Keeps.queues {s t : Part} (h : Keeps s t) (ok : s.queuesOk) : t.queuesOk := fun p =>
  have ⟨rx, relay, own⟩ := ok p
  ⟨h.rx p rx, h.relay p relay, h.own p own⟩

theorem Part.nodesOk.tableOk {s : Part} (h : s.nodesOk) : TableOk s.relay.nodes s.mgmt.node :=
  have ⟨room, order, others, _⟩ := h
  ⟨room, order, others⟩

theorem Keeps.laws {s t : Part} (h : Keeps s t) (empty : s.relay.nodes = [] → t.relay.nodes = []) : KeepsLaws s t := by
  refine ⟨fun ok => ?_, h.queues⟩
  obtain ⟨room, order, others⟩ := h.table ok.tableOk
  obtain ⟨-, -, -, before⟩ := ok
  exact ⟨room, order, others, fun stage => empty (before (h.stage ▸ stage))⟩

/-- A running part is past the load stage. -/
theorem Keeps.laws_of_on {s t : Part} (h : Keeps s t) (on : s.on = true) : KeepsLaws s t := by
  refine ⟨fun ok => ?_, h.queues⟩
  obtain ⟨room, order, others⟩ := h.table ok.tableOk
  refine ⟨room, order, others, fun stage => ?_⟩
  have running : t.power.stage = .running := h.stage.trans (of_decide_eq_true on)
  rw [running] at stage
  rcases stage with e | e <;> cases e

theorem finish_laws {s t : Part} (h : Keeps s t) (on : s.on = true) : KeepsLaws s (finish t) :=
  (h.trans (Inward.finish t).toKeeps).laws_of_on on

theorem eventIf_laws {test : Bool} {f : Part → Part} {s : Part} (h : Keeps s (f s)) :
    KeepsLaws s (eventIf test f s) := by
  unfold eventIf
  split
  · rename_i due
    exact finish_laws h due.1
  · exact .refl s

theorem onSymbol_laws {p : Port} {f : Part → Part} (s : Part) (h : ∀ t, Keeps t (f t)) :
    KeepsLaws s (onSymbol p f s) := by
  unfold onSymbol
  split
  · exact .refl s
  · rename_i off
    have on : s.on = true := by simpa using off
    split
    · exact finish_laws (Inward.wakeByLine s).toKeeps on
    · exact finish_laws ((Inward.hear p s).toKeeps.trans (h _)) on

theorem dispatchIf_laws {test : RxEntry → Bool} {act : RxEntry → Part → Part} (s : Part)
    (h : ∀ e t, Keeps t (act e t)) : KeepsLaws s (dispatchIf test act s) := by
  unfold dispatchIf
  split
  · exact .refl s
  · split
    · rename_i e _ due
      have on : s.on = true := (Bool.and_eq_true_iff.1 due.1).1
      exact finish_laws ((Keeps.takeEntry s).trans (h e _)) on
    · exact .refl s

theorem dispatchOp_laws {op : Nat} {permitted : Part → RxEntry → Bool} {lengthOk : Nat → Bool}
    {carry : Request → Part → Part} (s : Part) (h : ∀ q t, Inward t (carry q t)) :
    KeepsLaws s (dispatchOp op permitted lengthOk carry s) :=
  dispatchIf_laws s fun e t => (Inward.serve h e t).toKeeps

/-! ### Outputs and sampling -/

theorem Inward.sampleLamps (sort : Demand → Bool) (lamps : Vector Nat 12) (s : Part) :
    Inward s (localLamps.foldl (sampleIf sort lamps) s) :=
  .foldl (fun t _ => .ite (.of_reaction (.sampleLamp _ _ t)) (.refl t)) _ s

theorem Inward.sampleStep (lamps : Vector Nat 12) (fan : Nat) (s : Part) : Inward s (sampleStep lamps fan s) :=
  (Inward.sampleLamps _ lamps s).trans (.of_reaction (.sampleFan fan _))

theorem Inward.flashSampleStep (lamps : Vector Nat 12) (s : Part) : Inward s (flashSampleStep lamps s) :=
  (Inward.sampleLamps _ lamps s).trans (.of_reaction (.setChannels _ _))

theorem Inward.crossLevel (ch : Fin 25) (milliamps : Nat) (s : Part) : Inward s (crossLevel ch milliamps s) :=
  .of_reaction (.setChan ..)

theorem Inward.refreshNode (n : Nat) (s : Part) : Inward s (refreshNode n s) :=
  .ite (.of_reaction (.commandNode s n)) (.of_reaction (.onLampNode ..))

theorem refreshExpiry_laws (record : Fin 2) (s : Part) : KeepsLaws s (refreshExpiry record s) := by
  unfold refreshExpiry
  split
  · exact .refl s
  · exact eventIf_laws (Inward.refreshNode _ s).toKeeps

theorem Inward.onPhaseEdge (s : Part) : Inward s (onPhaseEdge s) :=
  .of_reaction ((Reaction.onEdge _ s).trans (.settleLights _))

theorem Inward.offPhaseEdge (s : Part) : Inward s (offPhaseEdge s) :=
  .of_reaction ((Reaction.setFlasher s _).trans (.settleLights _))

theorem Inward.tickSample (g : Fin 4) (s : Part) : Inward s (tickSample g s) :=
  .ite (.ite ((Inward.slipGauge g .repeat_ s).trans (.setGauge ..)) (.setGauge ..)) (.ite (.setGauge ..) (.refl s))

theorem Inward.useSample (g : Fin 4) (s : Part) : Inward s (useSample g s) := by
  unfold Machine.useSample
  dsimp only
  split
  · exact .refl s
  · exact .setGauge ..
  · split
    · exact .setGauge ..
    · exact .refl s

theorem Inward.actGauge (g : Fin 4) (s : Part) : Inward s (actGauge g s) := by
  unfold Machine.actGauge
  dsimp only
  split
  · exact .refl s
  · exact .refl s
  · exact .refl s
  · exact .setGauge ..
  all_goals
    split
    · exact (Inward.tickSample g _).trans (.useSample g _)
    · exact .setGauge ..

theorem Inward.tickGauge (s : Part) (g : Fin 4) : Inward s (tickGauge s g) :=
  (Inward.setGauge s g ((s.gauge g).takeFigures (s.gaugeCfg g))).trans (.actGauge g _)

theorem Inward.driveOutput (s : Part) (g : Fin 4) : Inward s (driveOutput s g) := .ite (.setGauge ..) (.refl s)

theorem Inward.tickGauges (s : Part) : Inward s (tickGauges s) :=
  ((Inward.foldl .tickGauge _ s).trans (.foldl .driveOutput _ _)).trans
    (.foldl (fun t g => .of_reaction (.endRamp t g)) _ _)

theorem Inward.lastRampTick (g : Fin 4) (s : Part) : Inward s (lastRampTick g s) :=
  ((Inward.tickGauge s g).trans (.driveOutput _ g)).trans (.of_reaction (.endRamp _ g))

/-! ### The power manager -/

theorem Inward.settleLine (l : IgnLine) (s : Part) : Inward s (settleLine l s) :=
  .setPower s _ (by cases l <;> rfl)

theorem Inward.cancelDeferral (s : Part) : Inward s (cancelDeferral s) := .of_reaction (.cancelDeferral s)

theorem Inward.setMode (m : Mode) (s : Part) : Inward s (s.setPower { s.power with mode := m }) := .setPower s _ rfl

theorem Inward.followIgnition (s : Part) : Inward s (followIgnition s) := by
  have woken : Inward s (wakeTo .running s) := .of_reaction (.wakeTo .running s rfl)
  unfold Machine.followIgnition
  split
  · exact .ite ((Inward.setMode .standing s).trans (.handMode _ _)) (.handMode _ _)
  · exact .ite (.refl s) (((Inward.cancelDeferral s).trans (.setMode .running _)).trans (.handMode _ _))
  · exact .ite (.refl s) woken
  · exact .ite (.refl s) woken
  · exact .refl s

theorem Inward.followSupply (s : Part) : Inward s (followSupply s) := by
  have low : Inward s (followLowSupply s) :=
    .ite (.setCond _ _ s Cond.noConfusion) (.ite (.setCond _ _ s Cond.noConfusion) (.refl s))
  have charged := low.trans (.followCharging _)
  exact .ite charged (charged.trans (.of_reaction (.selectLimit _)))

theorem Inward.settleReference (s : Part) : Inward s (settleReference s) :=
  (Inward.setPower s { s.power with settled := true, interval := .none } rfl).trans (.of_reaction (.gaugesSettled _))

theorem Inward.beginDeferral (s : Part) : Inward s (beginDeferral s) := .setPower s _ rfl

theorem Inward.enterDormant (s : Part) : Inward s (enterDormant s) := by
  have moded : Inward s (s.setPower { s.power with
      mode := Mode.dormant, deferral := false, reference := false, settled := false, interval := .none }) :=
    .setPower s _ rfl
  exact ((moded.trans (.of_reaction (.forceOff _))).trans (.handMode _ _)).trans (.answerSleep _ _)

theorem Inward.enterQuiet (s : Part) : Inward s (enterQuiet s) := by
  have dark : Inward s { s with ports := ⟨s.ports.front.darkened, s.ports.rear.darkened⟩ } :=
    .setPorts s _ fun p => by cases p <;> exact .inr rfl
  have moded : ∀ t : Part, Inward t (t.setPower { t.power with mode := .quiet, quiet := none }) := fun t =>
    .setPower t _ rfl
  exact ((dark.trans (.of_reaction (.forceOff _))).trans (moded _)).trans (.handMode _ _)

/-! ### Parts that do not run -/

theorem changeLine_laws (l : IgnLine) (high : Bool) (s : Part) : KeepsLaws s (changeLine l high s) := by
  unfold changeLine
  dsimp only
  split
  · exact .refl s
  · exact (Inward.setPower s _ (by cases l <;> rfl)).toKeeps.laws id

theorem debounceExpiry_laws (l : IgnLine) (s : Part) : KeepsLaws s (debounceExpiry l s) := by
  have settled := (Inward.settleLine l s).toKeeps
  unfold debounceExpiry
  dsimp only
  split
  · exact .refl s
  · split
    · exact settled.laws id
    · rename_i off
      have on : s.on = true := by simpa using off
      split
      · exact finish_laws settled on
      · exact finish_laws (settled.trans (Inward.followIgnition _).toKeeps) on

/-- A part that has lost its state has no node and nothing in its queues (02: R44). -/
theorem powerOn_laws {s t : Part} (relay : t.relay = Relay.powerOn) (idle : ∀ p, (t.port p).rx = Rx.idle) :
    KeepsLaws s t := by
  refine ⟨fun _ => ?_, fun _ p => ?_⟩
  · unfold Part.nodesOk
    rw [relay]
    exact ⟨Nat.zero_le _, .nil, fun e he => (List.not_mem_nil he).elim, fun _ => rfl⟩
  · unfold Part.rxPlaces Part.relayPlaces Part.rxQ Part.relayQ Part.ownQ
    rw [relay, idle]
    cases p <;> exact ⟨by decide, by decide, by decide⟩

theorem supplyStep_laws (v : Nat) (s : Part) : KeepsLaws s (supplyStep v s) := by
  have pushed : Inward s (pushSample v s) := .setPower s _ rfl
  have browned : ∀ t : Part, KeepsLaws s (brownOut t) := fun t => powerOn_laws rfl fun p => by cases p <;> rfl
  have released : ∀ t : Part, KeepsLaws s (releaseReset t) := fun t => powerOn_laws rfl fun p => by cases p <;> rfl
  unfold supplyStep
  dsimp only
  split
  · split
    · exact released _
    · exact pushed.toKeeps.laws id
  · split
    · exact browned _
    · exact pushed.toKeeps.laws id
  · rename_i running
    split
    · exact browned _
    · exact finish_laws (pushed.trans (.followSupply _)).toKeeps (decide_eq_true (pushed.stage.symm.trans running))

/-- The load stage meets an empty table, so the number it loads is in none (02: R44; 10: R179). -/
theorem nvLoadStep_laws (s : Part) : KeepsLaws s (nvLoadStep s) := by
  have loaded : (loadStore s).relay = s.relay ∧ (loadStore s).ports = s.ports := by
    unfold loadStore
    split <;> exact ⟨rfl, rfl⟩
  obtain ⟨relay, ports⟩ := loaded
  have locked : ∀ (t : Part) (a b : CheckLock), Inward t
      { t with ports := ⟨t.ports.front.withLock a, t.ports.rear.withLock b⟩ } := fun t a b =>
    .setPorts t _ fun p => by cases p <;> exact .inl rfl
  have built := ((((locked (loadStore s) (loadStore s).tables.link.lockFront (loadStore s).tables.link.lockRear).trans
    (.applyPins _)).trans (.of_reaction (.rebuildRecords _))).trans (.of_reaction (.gaugesFresh _))).toKeeps
  unfold nvLoadStep
  split
  · rename_i due
    refine ⟨fun ok => ?_, fun ok p => ?_⟩
    · obtain ⟨-, -, -, before⟩ := ok
      have empty : TableOk (loadStore s).relay.nodes (loadStore s).mgmt.node := by
        rw [relay, before (.inr due)]
        exact ⟨Nat.zero_le _, .nil, fun e he => (List.not_mem_nil he).elim⟩
      obtain ⟨room, order, others⟩ := built.table empty
      refine ⟨room, order, others, fun stage => ?_⟩
      rcases stage with e | e <;> cases e
    · have same : (loadStore s).queuesOk := by
        unfold Part.queuesOk Part.rxPlaces Part.relayPlaces Part.rxQ Part.relayQ Part.ownQ Part.port at ok ⊢
        rw [relay, ports]
        exact ok
      exact built.queues same p
  · exact .refl s

theorem markActive_keeps (s : Part) (c : Cond) (b : Bool) : Keeps s (s.markActive c b) :=
  ⟨rfl, id, fun _ => id, fun _ => id, fun _ => id⟩

theorem startConds_keeps (s : Part) : Keeps s (startConds s) := by
  have marked : ∀ (xs : List (Cond × Bool)) (t : Part), Keeps t (xs.foldl (fun t x => t.markActive x.1 x.2) t) := by
    intro xs
    induction xs with
    | nil => exact .refl
    | cons x xs ih => exact fun t => (markActive_keeps t x.1 x.2).trans (ih _)
  have flags : ∀ t : Part, Keeps t { t with mgmt := { t.mgmt with changed := 0, owed := false } } := fun t =>
    ⟨rfl, id, fun _ => id, fun _ => id, fun _ => id⟩
  exact (marked _ s).trans (flags _)

theorem startStep_laws (s : Part) : KeepsLaws s (startStep s) := by
  unfold startStep
  split
  · have started : ∀ p : Power, p.stage = .running → KeepsLaws s
        (Machine.finish (startConds (handMode .held ((s.setPower p).markActive .lowSupply (s.supply < 900))))) := by
      intro p running
      have blocks := (((markActive_keeps (s.setPower p) .lowSupply (s.supply < 900)).trans
        (Inward.handMode .held _).toKeeps).trans (startConds_keeps _))
      obtain ⟨nodes, queues⟩ := finish_laws blocks (decide_eq_true running)
      refine ⟨fun ok => nodes ?_, queues⟩
      obtain ⟨room, order, others, -⟩ := ok
      refine ⟨room, order, others, fun stage => ?_⟩
      rcases stage with e | e <;> cases running.symm.trans e
    exact started _ rfl
  · exact .refl s

theorem nodeAgeStep_laws (s : Part) : KeepsLaws s (nodeAgeStep s) := by
  have aged := Inward.ageNodes s
  unfold nodeAgeStep
  split
  · exact finish_laws (aged.trans (.followLink _)).toKeeps ‹_›
  · refine aged.toKeeps.laws fun none => ?_
    show s.relay.nodes.map _ = []
    rw [none]
    rfl

theorem tickPart_laws (s : Part) : KeepsLaws s (tickPart s) := by
  have rx : ∀ p, ((⟨s.ports.front.tick, s.ports.rear.tick⟩ : PerPort PortRec).get p).rx = (s.port p).rx := fun p => by
    cases p <;> rfl
  have relayQ : ∀ p, (s.relay.tick.relayQueue.get p).length = (s.relayQ p).length := fun p => by
    cases p <;> exact List.length_map ..
  unfold tickPart
  split
  · exact .refl s
  · have ticked : Keeps s { s with
        ports := ⟨s.ports.front.tick, s.ports.rear.tick⟩, relay := s.relay.tick, channels := s.channels.tick
        lamps := s.lamps.tick, fan := s.fan.tick, power := s.power.tick } := by
      refine ⟨rfl, fun h => h.map _ fun _ => rfl, fun p => ?_, fun p => ?_, fun _ => id⟩
      · unfold Part.rxPlaces Part.port
        dsimp only
        rw [rx]
        exact id
      · unfold Part.relayPlaces Part.port Part.relayQ
        dsimp only
        rw [rx, relayQ]
        exact id
    refine ticked.laws fun none => ?_
    show s.relay.nodes.map _ = []
    rw [none]
    rfl

/-! ### Every command -/

theorem quietPort_laws (p : Port) (s : Part) : KeepsLaws s (quietPort p s) := eventIf_laws (Inward.onQuiet p s).toKeeps

theorem transmitEnd_laws (p : Port) (s : Part) : KeepsLaws s (transmitEnd p s) := by
  unfold transmitEnd
  split
  · exact eventIf_laws (Inward.finishFrame p _ s).toKeeps
  · exact .refl s
  · exact .refl s

theorem commitComplete_laws (equal : Bool) (s : Part) : KeepsLaws s (commitComplete equal s) := by
  unfold commitComplete
  split
  · exact .refl s
  · exact eventIf_laws (Inward.completeCommit _ equal s).toKeeps

/-- The part a command makes of that of the state. -/
theorem nextPart_laws {s t : State} {p : Part} (h : KeepsLaws s.part p) (next : s.nextPart p = .next t) :
    KeepsLaws s.part t.part := by
  cases next
  exact h

theorem exec_laws (i : Instr) {s t : State} (next : exec i s = .next t) : KeepsLaws s.part t.part := by
  cases i with
  | startSymbol p => exact nextPart_laws (onSymbol_laws _ (Keeps.onStart p)) next
  | dataSymbol p n => exact nextPart_laws (onSymbol_laws _ (Keeps.onData p n)) next
  | endSymbol p => exact nextPart_laws (onSymbol_laws _ (Keeps.onEnd p)) next
  | abortSymbol p => exact nextPart_laws (onSymbol_laws _ (Keeps.onBreak p)) next
  | fillSymbol p => exact nextPart_laws (onSymbol_laws _ (Keeps.onBreak p)) next
  | portQuiet p => exact nextPart_laws (quietPort_laws p _) next
  | lineActivity p => exact nextPart_laws (eventIf_laws (Inward.wakeByLine _).toKeeps) next
  | transmitStart p => exact nextPart_laws (eventIf_laws (Keeps.chooseFrame p _)) next
  | transmitEnd p => exact nextPart_laws (transmitEnd_laws p _) next
  | relayAgeOut p => exact nextPart_laws (eventIf_laws (Keeps.ageOut p _)) next
  | nodeAgeStep => exact nextPart_laws (nodeAgeStep_laws _) next
  | duplicateClear n => exact nextPart_laws (eventIf_laws (Inward.clearDuplicate n _).toKeeps) next
  | ownNumberTimerExpiry => exact nextPart_laws (eventIf_laws (Inward.setOwnTimer _ none).toKeeps) next
  | switchState => exact nextPart_laws (dispatchIf_laws _ fun e t => (Inward.switchReport e.arrival _ _ t).toKeeps) next
  | senderReport => exact nextPart_laws (dispatchIf_laws _ fun e t => (Inward.reportGauges e.source _ t).toKeeps) next
  | lampStatus => exact nextPart_laws (dispatchIf_laws _ fun e t => (Inward.lampReport e.source _ t).toKeeps) next
  | unknownKind => exact nextPart_laws (dispatchIf_laws _ fun e t => (Inward.discardEntry e t).toKeeps) next
  | read => exact nextPart_laws (dispatchOp_laws _ .doRead) next
  | select => exact nextPart_laws (dispatchOp_laws _ .doSelect) next
  | readNext => exact nextPart_laws (dispatchOp_laws _ .doReadNext) next
  | write => exact nextPart_laws (dispatchOp_laws _ fun q t => .doWriteAt _ _ _ q t) next
  | writeNext => exact nextPart_laws (dispatchOp_laws _ fun q t => .doWriteAt _ _ _ q t) next
  | hold => exact nextPart_laws (dispatchOp_laws _ .doHold) next
  | release => exact nextPart_laws (dispatchOp_laws _ .doRelease) next
  | commit => exact nextPart_laws (dispatchOp_laws _ .doCommit) next
  | sleep => exact nextPart_laws (dispatchOp_laws _ .doSleep) next
  | assign => exact nextPart_laws (dispatchOp_laws _ .doAssign) next
  | reframe => exact nextPart_laws (dispatchOp_laws _ .doReframe) next
  | clear => exact nextPart_laws (dispatchIf_laws _ (Keeps.serve .doClear)) next
  | clearCounters => exact nextPart_laws (dispatchOp_laws _ .doClearCounters) next
  | commitComplete equal => exact nextPart_laws (commitComplete_laws equal _) next
  | sampleClock lamps fan => exact nextPart_laws (eventIf_laws (Inward.sampleStep lamps fan _).toKeeps) next
  | flashSample lamps => exact nextPart_laws (eventIf_laws (Inward.flashSampleStep lamps _).toKeeps) next
  | overloadLevelCrossing l i => exact nextPart_laws (eventIf_laws (Inward.crossLevel _ i _).toKeeps) next
  | overload l => exact nextPart_laws (eventIf_laws (Inward.of_reaction (.overloadChan _ _)).toKeeps) next
  | shortTrip l => exact nextPart_laws (eventIf_laws (Inward.of_reaction (.shortChan _ _)).toKeeps) next
  | retryTimerExpiry ch => exact nextPart_laws (eventIf_laws (Inward.of_reaction (.retryChan ch _)).toKeeps) next
  | refreshTimerExpiry r => exact nextPart_laws (refreshExpiry_laws r _) next
  | onPhaseEdge => exact nextPart_laws (eventIf_laws (Inward.onPhaseEdge _).toKeeps) next
  | offPhaseEdge => exact nextPart_laws (eventIf_laws (Inward.offPhaseEdge _).toKeeps) next
  | rampStep => exact nextPart_laws (eventIf_laws (Inward.of_reaction (.fanStep _)).toKeeps) next
  | stall i => exact nextPart_laws (eventIf_laws (Inward.of_reaction (.sampleFan i _)).toKeeps) next
  | stallWaitExpiry => exact nextPart_laws (eventIf_laws (Inward.of_reaction (.endStallWait _)).toKeeps) next
  | fanOverloadLevelCrossing i => exact nextPart_laws (eventIf_laws (Inward.of_reaction (.setFan _ _)).toKeeps) next
  | fanOverload => exact nextPart_laws (eventIf_laws (Inward.of_reaction (.overloadFan _)).toKeeps) next
  | gaugeTick => exact nextPart_laws (eventIf_laws (Inward.tickGauges _).toKeeps) next
  | parkRampEnd g => exact nextPart_laws (eventIf_laws (Inward.lastRampTick g _).toKeeps) next
  | ignitionLineChange l high => exact nextPart_laws (changeLine_laws l high _) next
  | ignitionDebounceExpiry l => exact nextPart_laws (debounceExpiry_laws l _) next
  | supplySample v => exact nextPart_laws (supplyStep_laws v _) next
  | nvLoad => exact nextPart_laws (nvLoadStep_laws _) next
  | powerOnStart => exact nextPart_laws (startStep_laws _) next
  | settlingExpiry => exact nextPart_laws (eventIf_laws (Inward.settleReference _).toKeeps) next
  | idleExpiry => exact nextPart_laws (eventIf_laws (Inward.beginDeferral _).toKeeps) next
  | dormantEntry => exact nextPart_laws (eventIf_laws (Inward.enterDormant _).toKeeps) next
  | quietEntry => exact nextPart_laws (eventIf_laws (Inward.enterQuiet _).toKeeps) next
  | unknownOp => exact nextPart_laws (dispatchIf_laws _ fun e t => (Inward.serveUnknown e t).toKeeps) next

/-- A step is a command or a tick. -/
theorem step_laws {s t : State} (next : step s = .next t) : KeepsLaws s.part t.part := by
  unfold step at next
  split at next
  · exact nextPart_laws (tickPart_laws _) next
  · rename_i c rest _
    exact exec_laws (s := { s with pending := rest }) c next

/-- Settles O8, the node table being a part of what every event keeps. -/
theorem stepKeepsNodeTable : Obligations.StepKeepsNodeTable := fun _ _ ok next => (step_laws next).1 ok

/-- Settles O9, the places of the queues being a part of what every event keeps. -/
theorem stepKeepsQueuePlaces : Obligations.StepKeepsQueuePlaces := fun _ _ ok next => (step_laws next).2 ok

end Sys2Proof.Machine
end

section
/-! The timers of the frame relay (02: R27, R31, R39). -/

namespace Sys2Proof.Machine

theorem FlagsOnly.port {s t : Part} (h : FlagsOnly s t) (p : Port) : t.port p = s.port p := by
  unfold Part.port
  rw [h.ports]

theorem ageOut_cons {p : Port} {s : Part} {e : RelayEntry} {q : List RelayEntry} (h : s.relayQ p = e :: q) :
    ageOut p s = setCond .queueLoss true (countDrop p (s.setRelayQ p q)) := by
  unfold ageOut
  rw [h]

/-- The oldest entry of a relay queue leaves it as a relay drop. -/
theorem relayAgeOut_spec (p : Port) (s : State) {e : RelayEntry} {q : List RelayEntry} (on : s.part.on = true)
    (h : s.part.relayQ p = e :: q) : ∃ t : Part, exec (.relayAgeOut p) s = .next { s with part := t } ∧
      t.relayQ p = q ∧ t.active .queueLoss = true ∧ (t.port p).counters =
        { (s.part.port p).counters with relayDrops := bump16 (s.part.port p).counters.relayDrops } ∧
      Undisturbed ((countDrop p (s.part.setRelayQ p q)).markActive .queueLoss true) t := by
  have due : (!(s.part.relayQ p).isEmpty) = true := by
    rw [h]
    rfl
  have still : Undisturbed ((countDrop p (s.part.setRelayQ p q)).markActive .queueLoss true)
      (finish (setCond .queueLoss true (countDrop p (s.part.setRelayQ p q)))) :=
    (finish_still _).trans (setCond_still ..)
  refine ⟨_, congrArg s.nextPart ((eventIf_eq (ageOut p) on due).trans (congrArg finish (ageOut_cons h))), ?_, ?_, ?_,
    still⟩
  · rw [still.relayQ p]
    exact setRelayQ_relayQ ..
  · rw [still.active .queueLoss rfl]
    exact markActive_active ..
  · rw [finish_port, (FlagsOnly.setCond ..).port p, countDrop_port]
    rfl

/-- A duplicate entry loses its mark and its moves. -/
theorem duplicateClear_spec (n : Nat) (s : State) (on : s.part.on = true) :
    ∃ t : Part, exec (.duplicateClear n) s = .next { s with part := t } ∧
      t.relay.nodes = s.part.relay.nodes.map (fun e =>
        if e.node = n ∧ e.duplicate = true then { e with duplicate := false, moves := 0 } else e) ∧
      Undisturbed (s.part.setNodes t.relay.nodes) t := by
  have still := finish_still (clearDuplicate n s.part)
  have nodes : (finish (clearDuplicate n s.part)).relay.nodes = (clearDuplicate n s.part).relay.nodes := still.relay.1
  refine ⟨_, congrArg s.nextPart (eventIf_eq (clearDuplicate n) on rfl), nodes, ?_⟩
  rw [nodes]
  exact still

/-- The own-number timer stops. -/
theorem ownNumberTimerExpiry_spec (s : State) (on : s.part.on = true) (running : s.part.relay.ownTimer ≠ none) :
    ∃ t : Part, exec .ownNumberTimerExpiry s = .next { s with part := t } ∧ t.relay.ownTimer = none ∧
      Undisturbed { s.part with relay := { s.part.relay with ownTimer := none } } t := by
  have still := finish_still (stopOwnTimer s.part)
  obtain ⟨-, timer, -⟩ := still.relay
  exact ⟨_, congrArg s.nextPart (eventIf_eq stopOwnTimer on (Option.isSome_iff_ne_none.2 running)), timer, still⟩

/-- Settles O26, timer by timer. -/
theorem relayTimersAct : Obligations.RelayTimersAct := fun s on =>
  ⟨fun p _ _ h => relayAgeOut_spec p s on h, fun n => duplicateClear_spec n s on, ownNumberTimerExpiry_spec s on⟩

end Sys2Proof.Machine
end

section
/-! Dispatch of the receive queues (02: R33, R34; 10: R164): the command that takes an entry, and what it leaves of the
queues. -/

namespace Sys2Proof.Machine

/-! ### The commands of dispatch -/

/-- The entries a command of dispatch takes. -/
def takes (c : Instr) (e : RxEntry) : Bool :=
  match c with
  | .switchState => e.consumer == .switchIntake
  | .senderReport => e.consumer == .gaugeUnit
  | .lampStatus => e.consumer == .channelManager
  | .unknownKind => e.consumer == .discard
  | .unknownOp => e.consumer == .management && e.op.isNone
  | .read => e.consumer == .management && e.op == some 1
  | .select => e.consumer == .management && e.op == some 2
  | .readNext => e.consumer == .management && e.op == some 3
  | .write => e.consumer == .management && e.op == some 4
  | .writeNext => e.consumer == .management && e.op == some 5
  | .hold => e.consumer == .management && e.op == some 6
  | .release => e.consumer == .management && e.op == some 7
  | .commit => e.consumer == .management && e.op == some 8
  | .sleep => e.consumer == .management && e.op == some 9
  | .assign => e.consumer == .management && e.op == some 10
  | .reframe => e.consumer == .management && e.op == some 11
  | .clear => e.consumer == .management && e.op == some 12
  | .clearCounters => e.consumer == .management && e.op == some 13
  | _ => false

/-- What a command of dispatch does with an entry it takes. -/
def actOn (c : Instr) (e : RxEntry) : Part → Part :=
  match c with
  | .switchState => switchReport e.arrival e.source e.payload
  | .senderReport => reportGauges e.source e.payload
  | .lampStatus => lampReport e.source e.payload
  | .unknownKind => discardEntry e
  | .unknownOp => serveUnknown e
  | .read => serve anyNode noData doRead e
  | .select => serve anyNode noData doSelect e
  | .readNext => serve anyNode noData doReadNext e
  | .write => serve serviceOnly (fun n => n != 0) doWrite e
  | .writeNext => serve serviceOnly (fun n => n != 0) doWriteNext e
  | .hold => serve serviceOnly noData doHold e
  | .release => serve serviceOnly noData doRelease e
  | .commit => serve serviceOnly noData doCommit e
  | .sleep => serve serviceOnly noData doSleep e
  | .assign => serve positional (fun n => n == 1) doAssign e
  | .reframe => serve serviceOnly (fun n => n == 1) doReframe e
  | .clear => serve serviceOnly (fun n => n == 2) doClear e
  | .clearCounters => serve serviceOnly noData doClearCounters e
  | _ => id

/-- A property of the thirteen ops and the five other commands of dispatch. -/
theorem dispatchCommands_all {P : Instr → Prop} (ops : ∀ r ∈ opRows, P r.command)
    (others : ∀ c ∈ [Instr.switchState, .senderReport, .lampStatus, .unknownKind, .unknownOp], P c) :
    ∀ c ∈ dispatchCommands, P c := by
  intro c hc
  rcases List.mem_append.1 hc with op | other
  · obtain ⟨r, hr, rfl⟩ := List.mem_map.1 op
    exact ops r hr
  · exact others c other

theorem exec_dispatch (s : State) :
    ∀ c ∈ dispatchCommands, exec c s = s.nextPart (dispatchIf (takes c) (actOn c) s.part) := by
  refine dispatchCommands_all ?_ ?_
  · simp only [opRows, List.forall_mem_cons]
    exact ⟨rfl, rfl, rfl, rfl, rfl, rfl, rfl, rfl, rfl, rfl, rfl, rfl, rfl, fun _ h => nomatch h⟩
  · simp only [List.forall_mem_cons]
    exact ⟨rfl, rfl, rfl, rfl, rfl, fun _ h => nomatch h⟩

/-! ### The command of an entry -/

theorem op_takes (e : RxEntry) :
    ∀ r ∈ opRows, takes r.command e = (e.consumer == .management && e.op == some r.code) := by
  simp only [opRows, List.forall_mem_cons]
  exact ⟨rfl, rfl, rfl, rfl, rfl, rfl, rfl, rfl, rfl, rfl, rfl, rfl, rfl, fun _ h => nomatch h⟩

/-- Each code of 11: Table 5 is that of one op. -/
theorem opRows_code_inj : ∀ r ∈ opRows, ∀ r' ∈ opRows, r.code = r'.code → r.command = r'.command := by decide

/-- The codes of the ops are 1 to 13. -/
theorem opRows_find (k : Nat) : (1 ≤ k ∧ k ≤ 13 ∧ ∃ r ∈ opRows, r.code = k ∧ opRows.find? (·.code == k) = some r) ∨
    (¬ (1 ≤ k ∧ k ≤ 13) ∧ opRows.find? (·.code == k) = none) := by
  by_cases range : 1 ≤ k ∧ k ≤ 13
  · have some : (opRows.find? (·.code == k)).isSome = true := by
      obtain ⟨low, high⟩ := range
      interval_cases k <;> rfl
    obtain ⟨r, found⟩ := Option.isSome_iff_exists.1 some
    exact .inl ⟨range.1, range.2, r, List.mem_of_find?_eq_some found, by simpa using List.find?_some found, found⟩
  · refine .inr ⟨range, List.find?_eq_none.2 fun r hr code => range ?_⟩
    have bounds : ∀ r ∈ opRows, 1 ≤ r.code ∧ r.code ≤ 13 := by decide
    rw [← show r.code = k by simpa using code]
    exact bounds r hr

/-- The command of a request is that of its op. -/
theorem command_request {e : RxEntry} (h : e.consumer = .management) :
    (∃ r ∈ opRows, e.op = some r.code ∧ e.command = r.command) ∨ e.op = none ∧ e.command = .unknownOp := by
  have kind : e.kind = 0x51 := by
    by_contra ne
    unfold RxEntry.consumer at h
    rw [if_neg (show ¬ e.kind = kindMgRequest from ne)] at h
    split at h
    · cases h
    · split at h
      · cases h
      · split at h
        · cases h
        · split at h <;> cases h
  unfold RxEntry.command RxEntry.op
  rw [if_pos kind]
  by_cases short : e.payload.length < 3
  · rw [if_pos short, if_pos short]
    exact .inr ⟨rfl, rfl⟩
  · rw [if_neg short, if_neg short]
    rcases opRows_find (at1 e.payload 0) with ⟨low, high, r, hr, code, found⟩ | ⟨range, none⟩
    · refine .inl ⟨r, hr, ?_, ?_⟩
      · rw [if_pos ⟨low, high⟩, code]
      · exact congrArg (fun o => (o.map OpRow.command).getD .unknownOp) found
    · refine .inr ⟨if_neg range, ?_⟩
      exact congrArg (fun o => (o.map OpRow.command).getD .unknownOp) none

/-- The command of a frame for another consumer. -/
theorem command_frame {e : RxEntry} (h : e.consumer ≠ .management) : e.command = match e.consumer with
    | .switchIntake => .switchState
    | .gaugeUnit => .senderReport
    | .channelManager => .lampStatus
    | .discard => .unknownKind
    | .management => .unknownOp := by
  unfold RxEntry.consumer RxEntry.command kindMgRequest kindSwitchState kindSenderReport kindLampStatus at *
  split
  · rename_i kind
    exact absurd (if_pos kind) h
  · split
    · rfl
    · split
      · rfl
      · split
        · rfl
        · split <;> rfl

theorem command_mem (e : RxEntry) : e.command ∈ dispatchCommands := by
  by_cases request : e.consumer = .management
  · rcases command_request request with ⟨r, hr, -, command⟩ | ⟨-, command⟩
    · rw [command]
      exact List.mem_append_left _ (List.mem_map_of_mem hr)
    · rw [command]
      decide
  · rw [command_frame request]
    split <;> decide

/-- An entry is taken by its own command and by no other. -/
theorem takes_iff (e : RxEntry) : ∀ c ∈ dispatchCommands, takes c e = true ↔ c = e.command := by
  by_cases request : e.consumer = .management
  · rcases command_request request with ⟨r, hr, op, command⟩ | ⟨op, command⟩
    · rw [command]
      refine dispatchCommands_all (fun r' hr' => ?_) ?_
      · rw [op_takes e r' hr', request, op]
        refine ⟨fun taken => (opRows_code_inj r hr r' hr' (by simpa using taken)).symm, fun same => ?_⟩
        have codes : ∀ r ∈ opRows, ∀ r' ∈ opRows, r'.command = r.command → r'.code = r.code := by decide
        simpa using (codes r hr r' hr' same).symm
      · have away : ∀ r ∈ opRows, ∀ c ∈ [Instr.switchState, .senderReport, .lampStatus, .unknownKind, .unknownOp],
            c ≠ r.command := by decide
        have none : ∀ c ∈ [Instr.switchState, .senderReport, .lampStatus, .unknownKind, .unknownOp],
            takes c e = false := by simp [takes, request, op]
        intro c hc
        rw [none c hc]
        exact ⟨nofun, fun same => absurd same (away r hr c hc)⟩
    · rw [command]
      refine dispatchCommands_all (fun r' hr' => ?_) ?_
      · have away : ∀ r ∈ opRows, r.command ≠ .unknownOp := by decide
        rw [op_takes e r' hr', op]
        simp [away r' hr']
      · simp [takes, request, op]
  · rw [command_frame request]
    refine dispatchCommands_all (fun r' hr' => ?_) ?_
    · have away : ∀ r ∈ opRows, r.command ∉ [Instr.switchState, .senderReport, .lampStatus, .unknownKind, .unknownOp] :=
        by decide
      have ne := away r' hr'
      rw [op_takes e r' hr']
      cases consumer : e.consumer <;> simp_all
    · cases consumer : e.consumer <;> simp_all [takes]

/-! ### What the commands leave of the queues -/

theorem Inward.act (e : RxEntry) (s : Part) : ∀ c ∈ dispatchCommands, c ≠ .clear → Inward s (actOn c e s) := by
  refine dispatchCommands_all ?_ ?_
  · simp only [opRows, List.forall_mem_cons]
    exact ⟨fun _ => .serve .doRead e s, fun _ => .serve .doSelect e s, fun _ => .serve .doReadNext e s,
      fun _ => .serve (lengthOk := fun n => n != 0) (carry := doWrite) (fun q t => .doWriteAt _ _ _ q t) e s,
      fun _ => .serve (lengthOk := fun n => n != 0) (carry := doWriteNext) (fun q t => .doWriteAt _ _ _ q t) e s,
      fun _ => .serve .doHold e s, fun _ => .serve .doRelease e s, fun _ => .serve .doCommit e s,
      fun _ => .serve .doSleep e s, fun _ => .serve (lengthOk := fun n => n == 1) .doAssign e s,
      fun _ => .serve (lengthOk := fun n => n == 1) .doReframe e s, fun clear => absurd rfl clear,
      fun _ => .serve .doClearCounters e s, fun _ h => nomatch h⟩
  · simp only [List.forall_mem_cons]
    exact ⟨fun _ => .switchReport .., fun _ => .reportGauges .., fun _ => .lampReport .., fun _ => .discardEntry e s,
      fun _ => .serveUnknown e s, fun _ h => nomatch h⟩

theorem QueuesStay.act {c : Instr} (hc : c ∈ dispatchCommands) (e : RxEntry) (s : Part) :
    QueuesStay s (actOn c e s) := by
  by_cases clear : c = .clear
  · have served : QueuesStay s (Machine.serve serviceOnly (fun n => n == 2) Machine.doClear e s) := .serve .doClear e s
    rw [clear]
    exact served
  · exact (Inward.act e s c hc clear).queuesStay

/-- The taken entry leaves its queue, which had its turn; a loss mark raises QUEUE_LOSS (02: R33, R34). -/
theorem takeEntry_spec (s : Part) : QueuesStay s.popped (takeEntry s) ∧ ∀ e, s.nextEntry = some e →
    e.lossMark = true → (takeEntry s).active .queueLoss = true := by
  have marked := Inward.setCond .queueLoss true s.popped fun _ => rfl
  unfold takeEntry
  dsimp only
  refine ⟨?_, fun e next mark => ?_⟩
  · split
    · exact marked.queuesStay
    · exact (Inward.refl s.popped).queuesStay
  · rw [if_pos (by rw [next]; exact mark), setCond_active, if_pos rfl]

theorem popped_rxQ (s : Part) : s.popped.rxQ s.nextQueue = (s.rxQ s.nextQueue).tail ∧
    s.popped.rxQ s.nextQueue.other = s.rxQ s.nextQueue.other :=
  ⟨setRxQ_rxQ .., get_set_other ..⟩

theorem QueuesStay.rxQ {s t : Part} (h : QueuesStay s t) (p : Port) : t.rxQ p = s.rxQ p := by
  unfold Part.rxQ
  rw [h.rxQueue]

theorem QueuesStay.relayQ {s t : Part} (h : QueuesStay s t) (p : Port) : t.relayQ p = s.relayQ p := by
  unfold Part.relayQ
  rw [h.relayQueue]

theorem nextQueue_eq (s : Part) : s.nextQueue =
    if s.rxQ .front = [] then Port.rear else if s.rxQ .rear = [] then .front else s.relay.lastTaken.other := by
  unfold Part.nextQueue
  split
  · rw [if_pos ‹_›]
  · rw [if_neg (by simp_all), if_pos ‹_›]
  · rw [if_neg (by simp_all), if_neg (by simp_all)]

/-- What dispatch does with the next entry. -/
theorem dispatch_spec {s : State} {e : RxEntry} (awake : s.part.awake = true) (next : s.part.nextEntry = some e) :
    ∃ t : Part, exec e.command s = .next { s with part := t } ∧ QueuesStay s.part.popped t ∧
      (e.lossMark = true → e.command ≠ .clear → t.active .queueLoss = true) ∧
      (e.command = .unknownKind → (t.port e.arrival).counters =
        { (s.part.port e.arrival).counters with
          unknownKind := bump16 (s.part.port e.arrival).counters.unknownKind }) := by
  have mem := command_mem e
  obtain ⟨taken, loss⟩ := takeEntry_spec s.part
  have taking : dispatchIf (takes e.command) (actOn e.command) s.part = finish (actOn e.command e (takeEntry s.part)) :=
    dispatchIf_eq _ awake next ((takes_iff e _ mem).2 rfl)
  refine ⟨_, (exec_dispatch s _ mem).trans (congrArg s.nextPart taking),
    (taken.trans (.act mem e _)).trans (Inward.finish _).queuesStay, fun mark clear => ?_, fun unknown => ?_⟩
  · exact (Inward.finish _).loss ((Inward.act e _ _ mem clear).loss (loss e next mark))
  · obtain ⟨-, -, -, -, ports, -⟩ := takeEntry_ready s.part
    have counted : ((discardEntry e (takeEntry s.part)).port e.arrival).counters = _ :=
      congrArg PortRec.counters (count_port ..)
    rw [finish_port, unknown]
    refine counted.trans ?_
    unfold Part.port
    rw [ports]

/-- Settles O28: the command of the entry takes it, every other command of dispatch leaves it. -/
theorem dispatchTakesNextEntry : Obligations.DispatchTakesNextEntry := by
  intro s e q awake u p queue
  have turn : s.part.nextQueue = p := nextQueue_eq s.part
  have next : s.part.nextEntry = some e := by
    unfold Part.nextEntry
    rw [turn, queue]
    rfl
  obtain ⟨own, other⟩ := popped_rxQ s.part
  rw [turn] at own other
  refine ⟨?_, fun c hc ne => ?_⟩
  · obtain ⟨t, ran, stay, loss, unknown⟩ := dispatch_spec awake next
    refine ⟨t, ran, ?_, ?_, stay.lastTaken.trans turn, stay.relayQ .front, stay.relayQ .rear, loss, unknown⟩
    · rw [stay.rxQ, own, queue]
      rfl
    · rw [stay.rxQ, other]
  · have left : takes c e = false := by simpa using mt (takes_iff e c hc).1 ne
    exact (exec_dispatch s c hc).trans (congrArg s.nextPart (dispatchIf_other _ next left))

end Sys2Proof.Machine
end

section
/-! Header time (02: R20 to R22, R32, R35, R37): the fate of a frame and the places of its copies. -/

namespace Sys2Proof.Machine

/-! ### The fate of a frame (02: Table 1) -/

/-- A number the part answers to: its own, or an adopted one that is not PRESENT (02: R20, R23). -/
def Part.answersTo (s : Part) (n : Nat) : Prop := n = s.mgmt.node ∨ s.adopted n = true ∧ s.present n = false

theorem fate_take (s : Part) (p : Port) (dest route : Nat) : (s.fate p dest route).take = true ↔
    s.answersTo dest ∨ dest = 63 ∨ dest = 0 ∧ route = 0 := by
  unfold Part.fate Part.answersTo Part.otherFate
  split
  · simp_all
  · split
    · simp_all
    · split
      · simp_all
      · split
        · split <;> simp_all
        · simp_all

theorem fate_relay (s : Part) (p : Port) (dest route : Nat) : (s.fate p dest route).relay = true ↔
    ¬ s.answersTo dest ∧ (dest = 63 ∨ dest = 0 ∧ 1 ≤ route ∧ route ≤ 15 ∨
      dest ≠ 63 ∧ dest ≠ 0 ∧ s.knownPort dest ≠ some p) := by
  unfold Part.fate Part.answersTo
  split
  · simp_all
  · split
    · simp_all
    · split
      · simp_all
      · split
        · split
          · simp_all
          · simp_all; omega
        · unfold Part.otherFate
          cases s.knownPort dest <;> simp_all

theorem present_iff (s : Part) (n : Nat) : s.present n = true ↔ ∃ e, s.node n = some e ∧ e.age < 30 := by
  unfold Part.present NodeEntry.state nodeStateOf
  cases s.node n with
  | none => simp
  | some e =>
    by_cases young : e.age < 30
    · simp [young]
    · by_cases old : e.age < 300 <;> simp [young, old]

theorem adopted_iff (s : Part) (n : Nat) : s.adopted n = true ↔ n ≠ 0 ∧ n ∈ s.tables.adopt.toList := by
  unfold Part.adopted
  simp

theorem knownPort_iff (s : Part) (n : Nat) (p : Port) : s.knownPort n = some p ↔
    ∃ e, s.node n = some e ∧ e.port = some p ∧ e.duplicate = false := by
  unfold Part.knownPort
  cases s.node n with
  | none => simp
  | some e => cases double : e.duplicate <;> simp [double]

/-! ### The port that hears a symbol -/

theorem hear_other (p : Port) (s : Part) : (hear p s).port p.other =
    { s.port p.other with tx := (s.port p.other).tx.slot } := by
  unfold hear
  simp only [Part.setTx, setPort_other, setPort_port]

/-- Two FILL symbols have gone out (01: R16). -/
theorem slot_two {x : TxState} (bound : ∀ k, x = .filling k → k ≤ 2) :
    (∃ k, x.slot = .filling k ∧ 2 ≤ k) ↔ x = .filling 1 ∨ x = .filling 2 := by
  cases x with
  | dark => simp [TxState.slot]
  | sending f => simp [TxState.slot]
  | filling k =>
    have := bound k rfl
    simp [TxState.slot]
    omega

theorem txFree_iff (s : Part) (p : Port) : s.txFree p = true ↔
    s.ownQ p = [] ∧ ∃ k, (s.port p).tx = .filling k ∧ 2 ≤ k := by
  unfold Part.txFree
  cases (s.port p).tx <;> simp [and_comm]

theorem mayCut_iff (s : Part) (p : Port) : s.mayCut p = true ↔ s.relayModeFrom p = .cut ∧
    (s.port p.other).state = .up ∧ s.txFree p.other = true ∧ s.relayQ p = [] ∧
    (s.port p).mode = (s.port p.other).mode := by
  unfold Part.mayCut Part.isUp
  simp [and_assoc]

/-! ### The decision -/

/-- The assembly after header time. -/
def decided (p : Port) (s : Part) : Rx :=
  let x := (s.port p).rx
  let fate := s.fate p (at1 x.bytes 0) (at1 x.bytes 1)
  { x with
    phase := .body, take := s.takeCopy p fate.take, relay := s.relayCopy p fate.relay, mode := (s.port p).mode }

section
variable {p : Port} {s : Part}

theorem headerTime_cutThrough (h : (decided p s).relay = .cutThrough) :
    headerTime p s = startCut p (s.port p).rx.bytes (s.setRx p (decided p s)) := by
  unfold headerTime
  exact if_pos h

theorem headerTime_drop (h : (decided p s).relay = .none)
    (relayed : (s.fate p (at1 (s.port p).rx.bytes 0) (at1 (s.port p).rx.bytes 1)).relay = true) :
    headerTime p s = countDrop p (s.setRx p (decided p s)) := by
  unfold headerTime
  refine (if_neg fun cut => ?_).trans (if_pos ⟨relayed, h⟩)
  exact RelayCopy.noConfusion (h.symm.trans cut)

theorem headerTime_kept (h : (decided p s).relay ≠ .cutThrough) (kept : (decided p s).relay = .none →
      (s.fate p (at1 (s.port p).rx.bytes 0) (at1 (s.port p).rx.bytes 1)).relay = false) :
    headerTime p s = s.setRx p (decided p s) := by
  unfold headerTime
  refine (if_neg h).trans (if_neg fun ⟨relayed, no⟩ => ?_)
  exact Bool.noConfusion ((kept no).symm.trans relayed)

end

theorem takeCopy_eq (s : Part) (p : Port) (take : Bool) : (take = true → s.takeCopy p take =
    if (s.rxQ p).length < 8 then .reserved else .noPlace) ∧ (take = false → s.takeCopy p take = .none) := by
  unfold Part.takeCopy
  cases take <;> simp

theorem relayCopy_eq (s : Part) (p : Port) (relay : Bool) : (relay = false → s.relayCopy p relay = .none) ∧
    (relay = true → (s.mayCut p = true → s.relayCopy p relay = .cutThrough) ∧
      (s.mayCut p = false → (s.relayQ p).length < 6 → s.relayCopy p relay = .reserved) ∧
      (s.mayCut p = false → 6 ≤ (s.relayQ p).length → s.relayCopy p relay = .none)) := by
  unfold Part.relayCopy
  cases relay
  · simp
  · refine ⟨nofun, fun _ => ⟨fun cut => ?_, fun cut room => ?_, fun cut full => ?_⟩⟩
    · simp [cut]
    · simp [cut, room]
    · simp [cut, Nat.not_lt.2 full]

/-- What header time makes of the arrival port and of the transmitter of the other. -/
theorem headerTime_spec (p : Port) (s : Part) : ((headerTime p s).port p).rx = decided p s ∧
    ((decided p s).relay = .cutThrough → ((headerTime p s).port p.other).tx = .sending
      { header := rewriteRoute (s.port p).rx.bytes, payload := [], origin := .cutThrough p, complete := false
        abort := none }) ∧
    ((s.fate p (at1 (s.port p).rx.bytes 0) (at1 (s.port p).rx.bytes 1)).relay = true → (decided p s).relay = .none →
      ((headerTime p s).port p).counters.relayDrops = bump16 (s.port p).counters.relayDrops) ∧
    ((s.fate p (at1 (s.port p).rx.bytes 0) (at1 (s.port p).rx.bytes 1)).relay = false →
      ((headerTime p s).port p).counters = (s.port p).counters) := by
  have set : (s.setRx p (decided p s)).port p = { s.port p with rx := decided p s } := setRx_port ..
  have uncut : (s.fate p (at1 (s.port p).rx.bytes 0) (at1 (s.port p).rx.bytes 1)).relay = false →
      (decided p s).relay = .none := (relayCopy_eq s p _).1
  by_cases cut : (decided p s).relay = .cutThrough
  · rw [headerTime_cutThrough cut]
    have near : (startCut p (s.port p).rx.bytes (s.setRx p (decided p s))).port p =
        { s.port p with rx := decided p s } := (setPort_other' ..).trans set
    refine ⟨?_, fun _ => ?_, fun _ none => ?_, fun _ => ?_⟩
    · rw [near]
    · exact congrArg PortRec.tx (setPort_port ..)
    · exact RelayCopy.noConfusion (none.symm.trans cut)
    · rw [near]
  · by_cases drop : (decided p s).relay = .none ∧
      (s.fate p (at1 (s.port p).rx.bytes 0) (at1 (s.port p).rx.bytes 1)).relay = true
    · obtain ⟨none, relayed⟩ := drop
      rw [headerTime_drop none relayed, countDrop_port, set]
      exact ⟨rfl, fun h => absurd h cut, fun _ _ => rfl, fun left => Bool.noConfusion (left.symm.trans relayed)⟩
    · have kept : (decided p s).relay = .none →
          (s.fate p (at1 (s.port p).rx.bytes 0) (at1 (s.port p).rx.bytes 1)).relay = false := fun none => by
        simpa using fun relayed => drop ⟨none, relayed⟩
      rw [headerTime_kept cut kept, set]
      exact ⟨rfl, fun h => absurd h cut, fun relayed none => absurd ⟨none, relayed⟩ drop, fun _ => rfl⟩

/-- The fourth byte of a header brings header time. -/
theorem headerTime_of_nibble {s : State} {p : Port} {h n : Nibble} {header : List Byte} (on : s.part.on = true)
    (loud : s.part.mode ≠ .quiet) (phase : (s.part.port p).rx.phase = .header)
    (bytes : (s.part.port p).rx.bytes = header) (three : header.length = 3) (half : (s.part.port p).rx.half = some h) :
    exec (.dataSymbol p n) s =
      .next { s with part := finish (headerTime p (addByte p (h ++ n) (hear p s.part))) } := by
  have rx := hear_rx p s.part
  have header : ((hear p s.part).port p).rx.phase = .header := by rw [rx, phase]
  rw [exec_dataSymbol p on loud, onData_nibble n (.inl header), takeNibble_second n (by rw [rx, half]),
    if_neg (by rw [header]; exact RxPhase.noConfusion), if_pos (by rw [rx, bytes, three])]

/-- The other port may cut a frame through once the fourth byte is in (02: R35). -/
theorem mayCut_heard (p : Port) (b : Byte) (s : Part) (up : (s.port p).state ≠ .down)
    (bound : ∀ k, (s.port p.other).tx = .filling k → k ≤ 2) : (addByte p b (hear p s)).mayCut p = true ↔
      s.relayModeFrom p = .cut ∧ (s.port p.other).state = .up ∧
      (s.ownQ p.other = [] ∧ ((s.port p.other).tx = .filling 1 ∨ (s.port p.other).tx = .filling 2)) ∧
      s.relayQ p = [] ∧ (s.port p).mode = (s.port p.other).mode := by
  have other : (addByte p b (hear p s)).port p.other = { s.port p.other with tx := (s.port p.other).tx.slot } :=
    (setPort_other ..).trans (hear_other p s)
  have mode : ((addByte p b (hear p s)).port p).mode = (s.port p).mode := by rw [addByte_port, hear_up up]
  have mode' : ((addByte p b (hear p s)).relayModeFrom p) = s.relayModeFrom p := by cases p <;> rfl
  have own : (addByte p b (hear p s)).ownQ p.other = s.ownQ p.other := rfl
  have queue : (addByte p b (hear p s)).relayQ p = s.relayQ p := rfl
  rw [mayCut_iff, txFree_iff, other, mode, mode', own, queue, slot_two bound]

theorem answersTo_iff (s : Part) (dest : Byte) : s.answersTo dest.toNat ↔ dest.toNat = s.mgmt.node ∨
    (dest ≠ 0 ∧ dest.toNat ∈ s.tables.adopt.toList ∧ ¬ ∃ e, s.node dest.toNat = some e ∧ e.age < 30) := by
  have zero : dest.toNat ≠ 0 ↔ dest ≠ 0 := not_congr (by bv_omega)
  unfold Part.answersTo
  rw [adopted_iff, zero, ← present_iff, Bool.not_eq_true, and_assoc]

theorem rewriteRoute_four (dest route source kind : Byte) : rewriteRoute [dest, route, source, kind] =
    if dest = 0 ∧ route ≠ 0 then [0, route - 1, source, kind] else [dest, route, source, kind] := by
  unfold rewriteRoute
  dsimp only
  split
  · rename_i counted
    rw [counted.1]
  · rfl

/-- Settles O17: the fate is that of 02: Table 1, and the copies follow it. -/
theorem headerTimeDecidesFate : Obligations.HeaderTimeDecidesFate := by
  intro s p h n dest route source on loud up phase bytes half own adopted here take onPort relay out free cut header
    bound
  let u := addByte p (h ++ n) (hear p s.part)
  let fate := s.part.fate p dest.toNat route.toNat
  have here_iff : s.part.answersTo dest.toNat ↔ here := answersTo_iff s.part dest
  have broadcast : dest.toNat = 63 ↔ dest = 63 := by bv_omega
  have positional : dest.toNat = 0 ↔ dest = 0 := by bv_omega
  have last : route.toNat = 0 ↔ route = 0 := by bv_omega
  have takes : fate.take = true ↔ take := by
    rw [fate_take, here_iff, broadcast, positional, last]
  have relays : fate.relay = true ↔ relay := by
    have known : s.part.knownPort dest.toNat = some p ↔ onPort p := knownPort_iff ..
    simp only [fate, fate_relay, here_iff, known, ne_eq, broadcast, positional]
    rfl
  have cuts : u.mayCut p = true ↔ cut := mayCut_heard p (h ++ n) s.part up bound
  have near : u.port p = { (s.part.port p) with
      quiet := some 20
      rx := { (s.part.port p).rx with half := none, bytes := [dest, route, source, h ++ n] } } := by
    rw [addByte_port, hear_up up, bytes]
    rfl
  have fates : u.fate p (at1 (u.port p).rx.bytes 0) (at1 (u.port p).rx.bytes 1) = fate := by
    rw [near]
    rfl
  have assembly : decided p u = { (s.part.port p).rx with
      half := none, bytes := [dest, route, source, h ++ n], phase := .body
      take := u.takeCopy p fate.take, relay := u.relayCopy p fate.relay, mode := (s.part.port p).mode } := by
    unfold decided
    dsimp only
    rw [fates, near]
  obtain ⟨rx, sent, drops, kept⟩ := headerTime_spec p u
  rw [fates, near, assembly] at drops
  rw [fates, near] at kept
  rw [assembly] at rx sent
  obtain ⟨taken, untaken⟩ := takeCopy_eq u p fate.take
  obtain ⟨unrelayed, relayed⟩ := relayCopy_eq u p fate.relay
  refine ⟨finish (headerTime p u), headerTime_of_nibble on loud phase bytes rfl half, ?_⟩
  simp only [finish_port, rx]
  refine ⟨trivial, trivial, trivial, fun h => taken (takes.2 h), fun h => untaken ?_, fun ⟨hr, hc⟩ => ?_,
    fun ⟨hr, hc, room⟩ => ?_, fun ⟨hr, hc, full⟩ => ?_, fun hr => ?_⟩
  · simpa using mt takes.1 h
  · have copy := (relayed (relays.2 hr)).1 (cuts.2 hc)
    refine ⟨copy, (sent copy).trans ?_⟩
    rw [near]
    exact congrArg (fun bs => TxState.sending ⟨bs, [], .cutThrough p, false, none⟩) (rewriteRoute_four ..)
  · exact (relayed (relays.2 hr)).2.1 (by simpa using mt cuts.1 hc) room
  · have copy := (relayed (relays.2 hr)).2.2 (by simpa using mt cuts.1 hc) full
    exact ⟨copy, drops (relays.2 hr) copy⟩
  · have left : fate.relay = false := by simpa using mt relays.1 hr
    exact ⟨unrelayed left, kept left⟩

end Sys2Proof.Machine
end

section
/-! The end of a good frame (02: R32, R33, R36 to R38): its copies, and what the rest of the event leaves of them. -/

namespace Sys2Proof.Machine

/-! ### What leaves the copies alone -/

/-- What the event on a port does beside the copies of a frame: receive and relay queues, loss marks, the counters and
the assembly of the port and a frame in transmission on the other port stay. -/
structure Beside (p : Port) (s t : Part) : Prop extends QueuesStay s t where
  loss : t.relay.lossPending = s.relay.lossPending
  rx : (t.port p).rx = (s.port p).rx
  counters : (t.port p).counters = (s.port p).counters
  sending : ∀ f, (s.port p.other).tx = .sending f → (t.port p.other).tx = .sending f

/-- A change apart from the ports, the queues and the loss marks. -/
theorem Beside.of_eq (p : Port) {s t : Part} (ports : t.ports = s.ports) (queues : QueuesStay s t)
    (loss : t.relay.lossPending = s.relay.lossPending) : Beside p s t := by
  have same : ∀ q, t.port q = s.port q := fun q => by
    unfold Part.port
    rw [ports]
  exact ⟨queues, loss, by rw [same], by rw [same], fun f sent => by rw [same, sent]⟩

theorem Beside.refl (p : Port) (s : Part) : Beside p s s := .of_eq p rfl ⟨rfl, rfl, rfl⟩ rfl

theorem Beside.trans {p : Port} {s t u : Part} (h : Beside p s t) (k : Beside p t u) : Beside p s u where
  toQueuesStay := h.toQueuesStay.trans k.toQueuesStay
  loss := k.loss.trans h.loss
  rx := k.rx.trans h.rx
  counters := k.counters.trans h.counters
  sending f := k.sending f ∘ h.sending f

theorem Beside.ite {p : Port} {s a b : Part} {c : Prop} [Decidable c] (ha : Beside p s a) (hb : Beside p s b) :
    Beside p s (if c then a else b) := by
  split
  · exact ha
  · exact hb

theorem Beside.of_undisturbed (p : Port) {s t : Part} (h : Undisturbed s t) : Beside p s t := by
  obtain ⟨-, -, rxQueue, loss, lastTaken, relayQueue⟩ := h.relay
  exact ⟨⟨rxQueue, relayQueue, lastTaken⟩, loss, core_rx (h.core p), core_counters (h.core p), fun _ => h.sending⟩

theorem Beside.setCond (p : Port) (c : Cond) (b : Bool) (s : Part) : Beside p s (setCond c b s) := by
  have marked : Beside p s (s.markActive c b) := .of_eq p rfl ⟨rfl, rfl, rfl⟩ rfl
  exact marked.trans (.of_undisturbed p (setCond_still c b s))

theorem Beside.finish (p : Port) (s : Part) : Beside p s (finish s) := .of_undisturbed p (finish_still s)

theorem Beside.followLink (p : Port) (s : Part) : Beside p s (followLink s) := by
  obtain ⟨b, still⟩ := followLink_still s
  have marked : Beside p s ((followFreshness s).markActive .nodeTableFull b) :=
    .of_eq p rfl ⟨rfl, rfl, rfl⟩ rfl
  exact marked.trans (.of_undisturbed p still)

theorem Beside.learn (source kind : Nat) (p : Port) (s : Part) : Beside p s (learn source kind p s) := by
  have nodes : ∀ ns, Beside p s (s.setNodes ns) := fun _ => .of_eq p rfl ⟨rfl, rfl, rfl⟩ rfl
  unfold Machine.learn
  split
  · exact .of_eq p rfl ⟨rfl, rfl, rfl⟩ rfl
  · split
    · exact nodes _
    · exact .ite (nodes _) (.setCond ..)

theorem Beside.setPort (p : Port) (s : Part) (r : PortRec) (rx : r.rx = (s.port p).rx)
    (counters : r.counters = (s.port p).counters) : Beside p s (s.setPort p r) := by
  refine ⟨⟨rfl, rfl, rfl⟩, rfl, ?_, ?_, fun f sent => ?_⟩
  · rw [setPort_port, rx]
  · rw [setPort_port, counters]
  · rw [setPort_other, sent]

theorem Beside.setTx (p : Port) (s : Part) (x : TxState) : Beside p s (s.setTx p x) := .setPort p s _ rfl rfl

theorem Beside.setOtherRx (p : Port) (s : Part) (x : Rx) : Beside p s (s.setRx p.other x) := by
  have near : (s.setRx p.other x).port p = s.port p := setPort_other' ..
  refine ⟨⟨rfl, rfl, rfl⟩, rfl, by rw [near], by rw [near], fun f sent => ?_⟩
  rw [setRx_port]
  exact sent

theorem Beside.abortTx (p : Port) (s : Part) : Beside p s (abortTx p s) := by
  unfold Machine.abortTx
  split
  · exact .ite ((Beside.setTx p s _).trans (.setOtherRx ..)) (.setTx ..)
  · exact .refl p s
  · exact .refl p s

theorem Beside.writePort (p : Port) (r : PortRec) (s : Part) (rx : r.rx = (s.port p).rx)
    (counters : r.counters = (s.port p).counters) : Beside p s (writePort p r s) := by
  have put := Beside.setPort p s r rx counters
  have placed : Beside p s (placePort p r s) := .ite (put.trans (.abortTx p _)) put
  exact placed.trans (.of_undisturbed p (writePort_reaction p r s).2.still)

theorem Beside.takeReframe (p : Port) (s : Part) : Beside p s (takeReframe p s) := by
  have written := Beside.writePort p (s.port p).reframed s rfl rfl
  unfold Machine.takeReframe
  exact .ite (written.trans (.followLink p _)) (.refl p s)

/-! ### The copies -/

/-- The write of the port at the end of a good frame leaves everything of the copies but the assembly. -/
theorem writeGood_beside (p : Port) (s : Part) : Beside p (clearRx p s) (writeGood p s) := by
  have rest := afterGood_rest (s.port p).cleared
  refine .writePort p _ _ ?_ ?_
  · rw [clearRx_port]
    exact rest.rx
  · rw [clearRx_port]
    exact rest.counters

/-- What follows the settling of the copies. -/
theorem endGood_beside (p : Port) (s : Part) :
    Beside p (settleCopies p (s.port p).rx (writeGood p s)) (finish (endGood p s)) := by
  rw [endGood_eq]
  exact (((Beside.learn _ _ p _).trans (.followLink p _)).trans (.takeReframe p _)).trans (.finish p _)

theorem setLoss_get (s : Part) (p : Port) (b : Bool) : (s.setLoss p b).relay.lossPending.get p = b := get_set_same ..

/-- The take copy of a good frame: the queue and the loss mark of the arrival port, its counters and its assembly. -/
theorem settleTake_cases (p : Port) (x : Rx) (s : Part) :
    (x.take = .reserved → (settleTake p x s).rxQ p = s.rxQ p ++ [x.entry p (s.relay.lossPending.get p)] ∧
      (settleTake p x s).relay.lossPending.get p = false ∧ (settleTake p x s).port p = s.port p) ∧
    (x.take = .noPlace → (settleTake p x s).rxQ p = s.rxQ p ∧ (settleTake p x s).relay.lossPending.get p = true ∧
      ((settleTake p x s).port p).counters =
        { (s.port p).counters with refused := bump16 (s.port p).counters.refused }) ∧
    (x.take = .none → settleTake p x s = s) := by
  refine ⟨fun h => ?_, fun h => ?_, settleTake_none s⟩
  · rw [settleTake_reserved s h]
    exact ⟨setRxQ_rxQ .., setLoss_get .., rfl⟩
  · rw [settleTake_noPlace s h]
    have counted := count_port s p fun c => { c with refused := bump16 c.refused }
    exact ⟨rfl, setLoss_get .., congrArg PortRec.counters counted⟩

/-- A relay copy that is not stored enters no queue. -/
theorem settleRelay_unstored {p : Port} {x : Rx} (s : Part) (h : x.relay ≠ .reserved) (q : Port) :
    (settleRelay p x s).relayQ q = s.relayQ q := by
  cases relay : x.relay with
  | none => rw [settleRelay_none s relay]
  | reserved => exact absurd relay h
  | cutThrough =>
    rw [settleRelay_cutThrough s relay]
    exact (NoTake.onCut ..).relayQ q

/-- The header a stored relay copy of a good frame carries (02: R21). -/
theorem rewriteRoute_take {bs : List Byte} (long : 4 ≤ bs.length) : rewriteRoute (bs.take 4) =
    if bs.getD 0 0 = 0 ∧ bs.getD 1 0 ≠ 0 then [0, bs.getD 1 0 - 1, bs.getD 2 0, bs.getD 3 0] else bs.take 4 := by
  match bs, long with
  | dest :: route :: source :: kind :: _, _ => exact rewriteRoute_four dest route source kind

theorem judge_good_long {m : CheckMode} {bs : List Byte} {half : Option Nibble} (good : judge m bs half = .good) :
    4 ≤ bs.length := by
  unfold judge at good
  split at good
  · cases good
  · omega

/-- Settles O18: the copies are settled after the port is written, and nothing of the event touches them again. -/
theorem goodFrameSettlesItsCopies : Obligations.GoodFrameSettlesItsCopies := by
  intro s p on loud up body good r x byte payload header
  let v := hear p s.part
  let w := writeGood p v
  have rx : (v.port p).rx = x := hear_rx p s.part
  have before : Beside p (clearRx p v) w := writeGood_beside p v
  have cleared : (clearRx p v).port p = { v.port p with rx := Rx.idle } := clearRx_port p v
  have idle : (w.port p).rx = Rx.idle := writeGood_rx p v
  have counters : (w.port p).counters = r.counters := by
    rw [before.counters, cleared]
    exact hear_counters p s.part
  have rxQ : ∀ q, w.rxQ q = s.part.rxQ q := before.rxQ
  have relayQ : ∀ q, w.relayQ q = s.part.relayQ q := before.relayQ
  have loss : w.relay.lossPending = s.part.relay.lossPending := before.loss
  have after := endGood_beside p v
  rw [rx] at after
  obtain ⟨taken, refused, untaken⟩ := settleTake_cases p x w
  obtain ⟨rxOther, relayFrame, otherTake, rxTake, -⟩ := settleTake_frame p x w
  obtain ⟨rxFrame, relayOther, -, near, -, -, -, -, -, lossFrame⟩ := settleRelay_frame p x (settleTake p x w)
  have copies : ∀ q, (settleCopies p x w).rxQ q = (settleTake p x w).rxQ q := rxFrame
  refine ⟨_, exec_endSymbol_good on loud up body good, ?_, fun h => ?_, fun h => ?_, fun h => ?_, fun h => ?_,
    fun h => ?_, fun f h sent => ?_, ?_, ?_⟩
  · rw [after.rx, settleCopies, near, rxTake, idle]
  · obtain ⟨queue, mark, port⟩ := taken h
    rw [after.loss, after.counters, after.rxQ, settleCopies, lossFrame, near, rxFrame, mark, port, queue, counters,
      rxQ, loss]
    exact ⟨rfl, rfl, rfl⟩
  · obtain ⟨queue, mark, count⟩ := refused h
    rw [after.loss, after.counters, after.rxQ, settleCopies, lossFrame, near, rxFrame, mark, count, queue, counters,
      rxQ]
    exact ⟨rfl, rfl, rfl⟩
  · rw [after.loss, after.counters, after.rxQ, settleCopies, lossFrame, near, rxFrame, untaken h, counters, rxQ, loss]
    exact ⟨rfl, rfl, rfl⟩
  · rw [after.relayQ, settleCopies, settleRelay_reserved _ h, setRelayQ_relayQ, relayFrame, relayQ,
      rewriteRoute_take (judge_good_long good)]
    rfl
  · rw [after.relayQ, settleCopies, settleRelay_unstored _ h, relayFrame, relayQ]
  · have heard : ((clearRx p v).port p.other).tx = .sending f := by
      unfold clearRx Part.setRx
      rw [setPort_other]
      exact hear_otherSending sent
    refine after.sending _ ?_
    rw [settleCopies, settleRelay_cutThrough _ h]
    exact onCut_sending p _ (by rw [otherTake]; exact before.sending f heard)
  · rw [after.rxQ, copies, rxOther, rxQ]
  · rw [after.relayQ, settleCopies, relayOther, relayFrame, relayQ]

end Sys2Proof.Machine
end

section
/-! TRANSMIT_START (02: R38, R41, R43): the arbiter's choice and the held reply that moves up. -/

namespace Sys2Proof.Machine

/-! ### What a START leaves alone -/

/-- What the START of a frame on a port leaves: a calm part stays calm, the other port, the receive queues and the
outputs stay. -/
structure Sends (p : Port) (s t : Part) : Prop where
  calm : s.calm → t.calm
  other : t.port p.other = s.port p.other
  rxQ : ∀ q, t.rxQ q = s.rxQ q
  outputs : SameOutputs s t

theorem SameOutputs.refl (s : Part) : SameOutputs s s := ⟨rfl, rfl, rfl, rfl, rfl⟩

theorem Sends.trans {p : Port} {s t u : Part} (h : Sends p s t) (k : Sends p t u) : Sends p s u where
  calm := k.calm ∘ h.calm
  other := k.other.trans h.other
  rxQ q := (k.rxQ q).trans (h.rxQ q)
  outputs := h.outputs.trans k.outputs

theorem Sends.setTx (p : Port) (s : Part) (x : TxState) : Sends p s (s.setTx p x) where
  calm h := by cases p <;> exact h
  other := setPort_other ..
  rxQ _ := rfl
  outputs := .refl s

theorem Sends.setOwnQ (p q : Port) (s : Part) (es : List OwnEntry) : Sends p s (s.setOwnQ q es) :=
  ⟨id, rfl, fun _ => rfl, .refl s⟩

theorem Sends.setRelayQ (p q : Port) (s : Part) (es : List RelayEntry) : Sends p s (s.setRelayQ q es) :=
  ⟨id, rfl, fun _ => rfl, .refl s⟩

theorem Sends.setHold (p : Port) (s : Part) (rs : List Reply) : Sends p s (s.setHold rs) :=
  ⟨id, rfl, fun _ => rfl, .refl s⟩

theorem Sends.handHeldFrom (p : Port) (rs : List Reply) (s : Part) : Sends p s (handHeldFrom rs s) := by
  induction rs generalizing s with
  | nil => exact .setHold ..
  | cons r rs ih =>
    unfold Machine.handHeldFrom handReply queueOwn
    split
    · exact .setHold ..
    · split
      · exact ih s
      · exact (Sends.setOwnQ p _ s _).trans (ih _)

/-! ### An own frame -/

/-- The frame of an own entry: its content is that of the moment. -/
def ownFrame (s : Part) (e : OwnEntry) : TxFrame :=
  { header := e.header, payload := s.ownPayload e.body
    origin := match e.body with
      | .lampCommand _ _ _ => .lampCommand
      | .notice => .notice
      | .reply _ => .reply
    complete := true, abort := none }

/-- An own entry out of its queue and on the line. -/
def sendOwn (p : Port) (e : OwnEntry) (rest : List OwnEntry) (s : Part) : Part :=
  (s.setOwnQ p rest).setTx p (.sending (ownFrame s e))

theorem startOwn_eq (p : Port) (e : OwnEntry) (rest : List OwnEntry) (s : Part) : startOwn p e rest s =
    if e.isReply then handHeldFrom s.mgmt.hold (sendOwn p e rest s) else sendOwn p e rest s := by
  obtain ⟨dest, source, body⟩ := e
  cases body <;> rfl

theorem sendOwn_ownQ (p : Port) (e : OwnEntry) (rest : List OwnEntry) (s : Part) :
    (sendOwn p e rest s).ownQ p = rest ∧ (sendOwn p e rest s).ownQ p.other = s.ownQ p.other :=
  ⟨get_set_same .., get_set_other ..⟩

theorem sendOwn_tx (p : Port) (e : OwnEntry) (rest : List OwnEntry) (s : Part) :
    ((sendOwn p e rest s).port p).tx = .sending (ownFrame s e) := congrArg PortRec.tx (setPort_port ..)

theorem sendOwn_state (p : Port) (e : OwnEntry) (rest : List OwnEntry) (s : Part) (q : Port) :
    ((sendOwn p e rest s).port q).state = (s.port q).state := by
  have near : (sendOwn p e rest s).port p = { s.port p with tx := .sending (ownFrame s e) } := setPort_port ..
  have far : (sendOwn p e rest s).port p.other = s.port p.other := setPort_other ..
  rcases port_cases p q with rfl | rfl
  · rw [near]
  · rw [far]

theorem Sends.startOwn (p : Port) (e : OwnEntry) (rest : List OwnEntry) (s : Part) :
    Sends p s (startOwn p e rest s) := by
  have sent : Sends p s (sendOwn p e rest s) := (Sends.setOwnQ p p s rest).trans (.setTx ..)
  rw [startOwn_eq]
  split
  · exact sent.trans (.handHeldFrom ..)
  · exact sent

theorem startOwn_tx (p : Port) (e : OwnEntry) (rest : List OwnEntry) (s : Part) :
    ((startOwn p e rest s).port p).tx = .sending (ownFrame s e) := by
  rw [startOwn_eq]
  split
  · unfold Part.port
    rw [(handHeldFrom_steady ..).1.ports]
    exact sendOwn_tx ..
  · exact sendOwn_tx ..

theorem startOwn_relayQ (p : Port) (e : OwnEntry) (rest : List OwnEntry) (s : Part) (q : Port) :
    (startOwn p e rest s).relayQ q = s.relayQ q := by
  rw [startOwn_eq]
  split
  · rw [(handHeldFrom_steady ..).2.relayQ q]
    rfl
  · rfl

/-! ### Held replies -/

theorem replyQueued_of_mem {s : Part} {e : OwnEntry} {q : Port} (h : e ∈ s.ownQ q) (reply : e.isReply = true) :
    s.replyQueued = true := by
  have any : (s.ownQ q).any (·.isReply) = true := List.any_eq_true.2 ⟨e, h, reply⟩
  unfold Part.replyQueued
  cases q <;> simp [any]

theorem replyQueued_eq_false {s : Part} (p : Port) (near : ∀ e ∈ s.ownQ p, e.isReply = false)
    (far : ∀ e ∈ s.ownQ p.other, e.isReply = false) : s.replyQueued = false := by
  have none : ∀ q, (∀ e ∈ s.ownQ q, e.isReply = false) → (s.ownQ q).any (·.isReply) = false := fun q h =>
    List.any_eq_false.2 fun e he => by rw [h e he]; exact Bool.false_ne_true
  unfold Part.replyQueued
  cases p
  · rw [none _ near, none .rear far]
    rfl
  · rw [none _ near, none .front far]
    rfl

/-- With a reply queued the held ones wait on. -/
theorem handHeldFrom_queued {s : Part} (h : s.replyQueued = true) (rs : List Reply) :
    handHeldFrom rs s = s.setHold rs := by
  cases rs with
  | nil => rfl
  | cons r rs => exact if_pos h

/-- The entry of a prepared reply. -/
def Reply.entry (r : Reply) : OwnEntry := { dest := r.dest, source := r.source, body := .reply r.payload }

/-- The oldest held reply goes to the queue of its port where there is room. -/
theorem handHeldFrom_room {s : Part} {r : Reply} (rs : List Reply) (idle : s.replyQueued = false)
    (up : (s.port r.arrival).state ≠ .down) (room : (s.ownQ r.arrival).length < 8) :
    (handHeldFrom (r :: rs) s).mgmt.hold = rs ∧ r.entry ∈ (handHeldFrom (r :: rs) s).ownQ r.arrival := by
  have handed : handReply r s = s.setOwnQ r.arrival (s.ownQ r.arrival ++ [r.entry]) := by
    unfold handReply queueOwn
    rw [if_neg up]
    exact congrArg (s.setOwnQ r.arrival) (if_pos room)
  have mem : r.entry ∈ (handReply r s).ownQ r.arrival := by
    rw [handed, setOwnQ_ownQ]
    exact List.mem_append_right _ List.mem_cons_self
  have moved : handHeldFrom (r :: rs) s = (handReply r s).setHold rs := by
    refine (if_neg (by rw [idle]; exact Bool.false_ne_true)).trans ?_
    exact handHeldFrom_queued (replyQueued_of_mem mem rfl) rs
  rw [moved]
  exact ⟨rfl, mem⟩

/-! ### The choice -/

theorem takeFirst_append {α : Type} {test : α → Bool} {pre : List α} {e : α} (post : List α)
    (before : ∀ x ∈ pre, test x = false) (he : test e = true) :
    takeFirst test (pre ++ e :: post) = some (e, pre ++ post) := by
  induction pre with
  | nil => exact if_pos he
  | cons x xs ih =>
    obtain ⟨first, rest⟩ := List.forall_mem_cons.1 before
    refine (if_neg (by rw [first]; exact Bool.false_ne_true)).trans ?_
    rw [show xs.append (e :: post) = xs ++ e :: post from rfl, ih rest]
    rfl

theorem takeFirst_none {α : Type} {test : α → Bool} {xs : List α} (h : ∀ x ∈ xs, test x = false) :
    takeFirst test xs = none := by
  induction xs with
  | nil => rfl
  | cons x xs ih =>
    obtain ⟨first, rest⟩ := List.forall_mem_cons.1 h
    refine (if_neg (by rw [first]; exact Bool.false_ne_true)).trans ?_
    rw [ih rest]
    rfl

section
variable {p : Port} {s : Part}

theorem chooseFrame_urgent {e : OwnEntry} {pre post : List OwnEntry} (own : s.ownQ p = pre ++ e :: post)
    (before : ∀ x ∈ pre, x.urgent = false) (urgent : e.urgent = true) :
    chooseFrame p s = startOwn p e (pre ++ post) s := by
  unfold chooseFrame
  rw [own, takeFirst_append post before urgent]

theorem chooseFrame_relayed {e : RelayEntry} {q : List RelayEntry} (calm : ∀ x ∈ s.ownQ p, x.urgent = false)
    (relayed : s.relayQ p.other = e :: q) : chooseFrame p s = startRelayed p e q s := by
  unfold chooseFrame
  rw [takeFirst_none calm, relayed]

theorem chooseFrame_own {e : OwnEntry} {q : List OwnEntry} (calm : ∀ x ∈ s.ownQ p, x.urgent = false)
    (relayed : s.relayQ p.other = []) (own : s.ownQ p = e :: q) : chooseFrame p s = startOwn p e q s := by
  unfold chooseFrame
  rw [takeFirst_none calm, relayed, own]

theorem chooseFrame_none (relayed : s.relayQ p.other = []) (own : s.ownQ p = []) :
    chooseFrame p s = s.setTx p (.filling 2) := by
  unfold chooseFrame
  rw [own, relayed]
  rfl

end

theorem Sends.chooseFrame (p : Port) (s : Part) : Sends p s (chooseFrame p s) := by
  unfold Machine.chooseFrame
  split
  · exact .startOwn ..
  · split
    · exact (Sends.setRelayQ p p.other s _).trans (.setTx ..)
    · split
      · exact .startOwn ..
      · exact .setTx ..

/-- The relay queue of the port itself is no matter of its own transmitter. -/
theorem chooseFrame_relayQ (p : Port) (s : Part) : (chooseFrame p s).relayQ p = s.relayQ p := by
  unfold chooseFrame
  split
  · exact startOwn_relayQ ..
  · split
    · exact get_other_set ..
    · split
      · exact startOwn_relayQ ..
      · rfl

/-- A calm part only lets its timers follow the state. -/
theorem exec_transmitStart {s : State} {p : Port} {k : Nat} (on : s.part.on = true) (up : (s.part.port p).state = .up)
    (free : (s.part.port p).tx = .filling k) (calm : s.part.calm) : exec (.transmitStart p) s =
      .next { s with part := followIdle (followQuiet (chooseFrame p s.part)) } := by
  have due : (s.part.isUp p && (s.part.port p).fills) = true := by
    unfold Part.isUp PortRec.fills
    rw [up, free]
    rfl
  rw [← finish_calm _ ((Sends.chooseFrame p s.part).calm calm)]
  exact congrArg s.nextPart (eventIf_eq (chooseFrame p) on due)

/-- An own entry that is not urgent is a reply. -/
theorem isReply_of_not_urgent {e : OwnEntry} (h : e.urgent = false) : e.isReply = true := by
  obtain ⟨dest, source, body⟩ := e
  cases body with
  | lampCommand lit dim duty => cases h
  | notice => cases h
  | reply bs => rfl

/-- An urgent own entry is no reply. -/
theorem not_isReply_of_urgent {e : OwnEntry} (h : e.urgent = true) : e.isReply = false := by
  obtain ⟨dest, source, body⟩ := e
  cases body with
  | lampCommand lit dim duty => rfl
  | notice => rfl
  | reply bs => cases h

/-- Settles O24: by the arbiter's choice; the timers that follow the state leave its frame and its queues. -/
theorem transmitStartChooses : Obligations.TransmitStartChooses := by
  intro s p k on up free calm u own relayed header frame
  have sends := Sends.chooseFrame p u
  have framed : ∀ e, frame e = .sending (ownFrame u e) := fun e => by
    obtain ⟨dest, source, body⟩ := e
    cases body <;> rfl
  refine ⟨_, exec_transmitStart on up free calm, fun pre e post split before urgent => ?_,
    fun still => ⟨fun e q h => ?_, fun e q none h => ?_, fun none h => ?_⟩, sends.other,
    chooseFrame_relayQ p u, sends.rxQ, sends.outputs⟩
  · show ((chooseFrame p u).port p).tx = _ ∧ (chooseFrame p u).ownQ p = _ ∧ (chooseFrame p u).relayQ p.other = _
    rw [chooseFrame_urgent split before urgent, startOwn_tx, startOwn_relayQ, framed, startOwn_eq,
      not_isReply_of_urgent urgent]
    exact ⟨rfl, (sendOwn_ownQ ..).1, rfl⟩
  · show ((chooseFrame p u).port p).tx = _ ∧ (chooseFrame p u).relayQ p.other = _ ∧ (chooseFrame p u).ownQ p = _
    rw [chooseFrame_relayed still h]
    exact ⟨congrArg PortRec.tx (setPort_port ..), setRelayQ_relayQ .., rfl⟩
  · show ((chooseFrame p u).port p).tx = _ ∧ (_ → (chooseFrame p u).ownQ p = _) ∧ ∀ (r : Reply) rs, _ → _ → _ → _ → _ →
      (chooseFrame p u).mgmt.hold = rs ∧ r.entry ∈ (chooseFrame p u).ownQ r.arrival
    obtain ⟨near, far⟩ := sendOwn_ownQ p e q u
    have reply : e.isReply = true := isReply_of_not_urgent (still e (by rw [h]; exact List.mem_cons_self))
    rw [chooseFrame_own still none h, startOwn_tx, framed, startOwn_eq, if_pos reply]
    refine ⟨rfl, fun empty => ?_, fun r rs held calmNear calmFar arrives room => ?_⟩
    · rw [empty]
      exact near
    · rw [held]
      refine handHeldFrom_room rs
        (replyQueued_eq_false p (by rw [near]; exact calmNear) (by rw [far]; exact calmFar)) ?_ ?_
      · rw [sendOwn_state]
        exact arrives
      · rcases port_cases p r.arrival with same | other
        · rw [if_pos same] at room
          rw [same, near]
          exact room
        · rw [if_neg (by rw [other]; cases p <;> decide)] at room
          rw [other] at room ⊢
          rw [far]
          exact room
  · show ((chooseFrame p u).port p).tx = _ ∧ (chooseFrame p u).ownQ p = _
    rw [chooseFrame_none none h]
    exact ⟨congrArg PortRec.tx (setPort_port ..), h⟩

end Sys2Proof.Machine
end

section
/-! What the reactions of the blocks leave of the reachability of the lamp nodes, of the deferral and of the
LAMP_COMMAND frames that wait (02: R40, R41; 04: R73, R75). -/

namespace Sys2Proof.Machine

/-! ### The relations -/

/-- A LAMP_COMMAND of the part to a node waits in the own transmit queue of a port. -/
def Part.commands (s : Part) (p : Port) (n : Nat) : Prop :=
  ∃ lit dim duty, { dest := n, source := s.mgmt.node, body := .lampCommand lit dim duty } ∈ s.ownQ p

/-- No deferral begins, and no LAMP_COMMAND is lost. -/
structure Aware (s t : Part) : Prop where
  deferral : s.power.deferral = false → t.power.deferral = false
  node : t.mgmt.node = s.mgmt.node
  commands : ∀ p n, s.commands p n → t.commands p n

/-- What is known of a lamp node: its number and whether it can be reached. -/
def LampNode.key (r : LampNode) : Nat × Bool := (r.node, r.reachable)

/-- The lamp nodes and whether they can be reached, in the order of the records. -/
def Part.reach (s : Part) : List (Nat × Bool) := s.channels.lampNodes.map LampNode.key

/-- The reachability of the lamp nodes stays too. -/
structure SameReach (s t : Part) : Prop extends Aware s t where
  reach : t.reach = s.reach

theorem Aware.refl (s : Part) : Aware s s := ⟨id, rfl, fun _ _ => id⟩

theorem Aware.trans {s t u : Part} (h : Aware s t) (k : Aware t u) : Aware s u where
  deferral := k.deferral ∘ h.deferral
  node := k.node.trans h.node
  commands p n := k.commands p n ∘ h.commands p n

theorem SameReach.refl (s : Part) : SameReach s s := ⟨.refl s, rfl⟩

theorem SameReach.trans {s t u : Part} (h : SameReach s t) (k : SameReach t u) : SameReach s u where
  toAware := h.toAware.trans k.toAware
  reach := k.reach.trans h.reach

theorem Aware.foldl {α : Type} {f : Part → α → Part} (hf : ∀ s x, Aware s (f s x)) (xs : List α) (s : Part) :
    Aware s (xs.foldl f s) := by
  induction xs generalizing s with
  | nil => exact .refl s
  | cons x xs ih => exact (hf s x).trans (ih _)

theorem SameReach.foldl {α : Type} {f : Part → α → Part} (hf : ∀ s x, SameReach s (f s x)) (xs : List α) (s : Part) :
    SameReach s (xs.foldl f s) := by
  induction xs generalizing s with
  | nil => exact .refl s
  | cons x xs ih => exact (hf s x).trans (ih _)

theorem SameReach.ite {s a b : Part} {c : Prop} [Decidable c] (ha : SameReach s a) (hb : SameReach s b) :
    SameReach s (if c then a else b) := by
  split
  · exact ha
  · exact hb

/-! ### Single updates -/

/-- An update apart from the lamp-node records, the own transmit queues and the working node number. -/
theorem SameReach.of_eq {s t : Part} (nodes : t.channels.lampNodes = s.channels.lampNodes)
    (queue : t.relay.ownQueue = s.relay.ownQueue) (node : t.mgmt.node = s.mgmt.node)
    (deferral : s.power.deferral = false → t.power.deferral = false) : SameReach s t := by
  refine ⟨⟨deferral, node, fun p n => ?_⟩, ?_⟩
  · unfold Part.commands Part.ownQ
    rw [queue, node]
    exact id
  · unfold Part.reach
    rw [nodes]

theorem SameReach.setChan (s : Part) (ch : Fin 25) (c : Chan) : SameReach s (s.setChan ch c) := .of_eq rfl rfl rfl id

theorem SameReach.setFlasher (s : Part) (f : Flasher) : SameReach s (s.setFlasher f) := .of_eq rfl rfl rfl id

theorem SameReach.setFan (s : Part) (f : Fan) : SameReach s (s.setFan f) := .of_eq rfl rfl rfl id

theorem SameReach.setGauge (s : Part) (g : Fin 4) (r : Gauge) : SameReach s (s.setGauge g r) := .of_eq rfl rfl rfl id

theorem SameReach.setLamps (s : Part) (l : Lamps) : SameReach s { s with lamps := l } := .of_eq rfl rfl rfl id

theorem SameReach.setArbiter (s : Part) (a : Arbiter) : SameReach s (s.setArbiter a) := .of_eq rfl rfl rfl id

theorem SameReach.setPower (s : Part) (p : Power) (h : s.power.deferral = false → p.deferral = false) :
    SameReach s (s.setPower p) := .of_eq rfl rfl rfl h

/-- The records changed in place, but for number and reachability. -/
theorem SameReach.setLampNodes (s : Part) (f : LampNode → LampNode) (h : ∀ r, (f r).key = r.key) :
    SameReach s (s.setLampNodes (s.channels.lampNodes.map f)) := by
  refine ⟨⟨id, rfl, fun _ _ => id⟩, ?_⟩
  show (s.channels.lampNodes.map f).map LampNode.key = _
  rw [List.map_map]
  exact List.map_congr_left fun r _ => h r

theorem SameReach.onLampNode (s : Part) (n : Nat) (f : LampNode → LampNode) (h : ∀ r, (f r).key = r.key) :
    SameReach s (s.onLampNode n f) :=
  .setLampNodes s _ fun r => by
    split
    · exact h r
    · rfl

/-! ### The own transmit queues -/

/-- A LAMP_COMMAND that waits is kept, or gives its place to one for the same node. -/
theorem enqueue_commands {e x : OwnEntry} {q : List OwnEntry} (lamp : x.isLampCommand = true) (h : x ∈ q) :
    x ∈ enqueue e q ∨ e.isLampCommand = true ∧ e.dest = x.dest ∧ e ∈ enqueue e q := by
  unfold enqueue
  split
  · rename_i absorbs
    by_cases same : e.dest = x.dest
    · refine .inr ⟨(Bool.and_eq_true_iff.1 absorbs).1, same, List.mem_map.2 ⟨x, h, ?_⟩⟩
      rw [if_pos (by simp [lamp, same])]
    · refine .inl (List.mem_map.2 ⟨x, h, ?_⟩)
      rw [if_neg (by simp [Ne.symm same])]
  · split
    · exact .inl (List.mem_append_left _ h)
    · exact .inl h

theorem isLampCommand_body {e : OwnEntry} (h : e.isLampCommand = true) :
    ∃ lit dim duty, e.body = .lampCommand lit dim duty := by
  obtain ⟨dest, source, body⟩ := e
  cases body with
  | lampCommand lit dim duty => exact ⟨lit, dim, duty, rfl⟩
  | notice => cases h
  | reply bs => cases h

theorem SameReach.queueOwn (e : OwnEntry) (s : Part) (p : Port) (h : e.source = s.mgmt.node) :
    SameReach s (queueOwn e s p) := by
  unfold Machine.queueOwn
  refine .ite (.refl s) ⟨⟨id, rfl, fun q n => ?_⟩, rfl⟩
  rintro ⟨lit, dim, duty, waits⟩
  rcases port_cases p q with rfl | rfl
  · show ∃ lit dim duty, _ ∈ (s.setOwnQ q _).ownQ q
    rw [setOwnQ_ownQ]
    rcases enqueue_commands (e := e) rfl waits with kept | ⟨lamp, dest, mem⟩
    · exact ⟨lit, dim, duty, kept⟩
    · obtain ⟨lit', dim', duty', body⟩ := isLampCommand_body lamp
      refine ⟨lit', dim', duty', ?_⟩
      have same : e = { dest := n, source := s.mgmt.node, body := .lampCommand lit' dim' duty' } := by
        obtain ⟨d, src, b⟩ := e
        cases dest
        cases h
        cases body
        rfl
      exact (congrArg (· ∈ enqueue e (s.ownQ q)) same).mp mem
  · refine ⟨lit, dim, duty, ?_⟩
    rw [show (s.setOwnQ p _).ownQ p.other = s.ownQ p.other from get_set_other ..]
    exact waits

/-- An entry that is no LAMP_COMMAND takes nothing from one that is. -/
theorem SameReach.queueOther (e : OwnEntry) (s : Part) (p : Port) (h : e.isLampCommand = false) :
    SameReach s (Machine.queueOwn e s p) := by
  unfold Machine.queueOwn
  refine .ite (.refl s) ⟨⟨id, rfl, fun q n => ?_⟩, rfl⟩
  rintro ⟨lit, dim, duty, waits⟩
  refine ⟨lit, dim, duty, ?_⟩
  rcases port_cases p q with rfl | rfl
  · rw [setOwnQ_ownQ]
    rcases enqueue_commands (e := e) rfl waits with kept | ⟨lamp, -⟩
    · exact kept
    · exact Bool.noConfusion (h.symm.trans lamp)
  · rw [show (s.setOwnQ p _).ownQ p.other = s.ownQ p.other from get_set_other ..]
    exact waits

theorem SameReach.queueEach (e : OwnEntry) (ps : List Port) (s : Part) (h : e.source = s.mgmt.node) :
    SameReach s (ps.foldl (Machine.queueOwn e) s) := by
  induction ps generalizing s with
  | nil => exact .refl s
  | cons p ps ih =>
    have queued := SameReach.queueOwn e s p h
    exact queued.trans (ih _ (h.trans queued.node.symm))

theorem SameReach.originate (n : Nat) (b : OwnBody) (s : Part) : SameReach s (originate n b s) := .queueEach _ _ s rfl

theorem SameReach.requestNotice (s : Part) : SameReach s (requestNotice s) := .ite (.refl s) (.originate ..)

theorem SameReach.answerRequest (q : Request) (a : Answer) (s : Part) : SameReach s (answerRequest q a s) :=
  .ite (.of_eq rfl rfl rfl id) (.queueOther _ s _ rfl)

theorem SameReach.answerSleep (st : Status) (s : Part) : SameReach s (answerSleep st s) := by
  unfold Machine.answerSleep
  split
  · exact .refl s
  · have taken : SameReach s { s with mgmt := { s.mgmt with sleep := none } } := .of_eq rfl rfl rfl id
    exact taken.trans (.answerRequest ..)

/-! ### Conditions and lights -/

theorem SameReach.oweNotice (c : Cond) (s : Part) : SameReach s (oweNotice c s) := by
  have owed : SameReach s { s with mgmt := { s.mgmt with owed := true } } := .of_eq rfl rfl rfl id
  exact .ite (owed.trans (.requestNotice _)) (.refl s)

theorem SameReach.setCond (c : Cond) (b : Bool) (s : Part) : SameReach s (setCond c b s) := by
  have mark : SameReach s (s.markActive c b) := .of_eq rfl rfl rfl id
  have changed : ∀ (t : Part) (v : BitVec 16), SameReach t { t with mgmt := { t.mgmt with changed := v } } :=
    fun t v => .of_eq rfl rfl rfl id
  exact .ite (.refl s) (mark.trans (.ite (.refl _) ((changed _ _).trans (.oweNotice c _))))

theorem SameReach.syncConds (s : Part) : SameReach s (syncConds s) := by
  have each : ∀ (t : Part) (x : Cond × Bool), SameReach t (Machine.setCond x.1 x.2 t) := fun t x => .setCond ..
  exact .ite (.foldl each _ s) (.refl s)

theorem SameReach.commandNode (s : Part) (n : Nat) : SameReach s (commandNode s n) := by
  unfold Machine.commandNode
  split
  · exact .refl s
  · exact .ite (.refl s) ((SameReach.originate ..).trans (.onLampNode _ _ _ fun _ => rfl))

theorem SameReach.refreshMasks (s : Part) : SameReach s (refreshMasks s) :=
  (SameReach.setLampNodes s (·.shown s) fun _ => rfl).trans (.foldl .commandNode _ _)

theorem SameReach.onEdge (r : FlashRate) (s : Part) : SameReach s (onEdge r s) := .of_eq rfl rfl rfl id

theorem SameReach.settleLights (s : Part) : SameReach s (settleLights s) := by
  have started : SameReach s (flashStart s) := .ite (.onEdge ..) (.refl s)
  have dropped : ∀ t, SameReach t (dropTimers t) := fun t => .of_eq rfl rfl rfl id
  exact (started.trans (dropped _)).trans (.refreshMasks _)

theorem SameReach.noteFault (ch : Fin 25) (s : Part) : SameReach s (noteFault ch s) := .ite (.setFlasher ..) (.refl s)

/-! ### The budget -/

theorem SameReach.leaveSettling (g : Fin 4) (s : Part) : SameReach s (leaveSettling g s) :=
  .ite (.setGauge ..) (.refl s)

theorem SameReach.handGrant (ch : Fin 25) (s : Part) : SameReach s (handGrant ch s) := by
  have lamp : SameReach s (Machine.settleLights (s.setChan ch { s.chan ch with state := .on })) :=
    (SameReach.setChan ..).trans (.settleLights _)
  unfold Machine.handGrant
  split
  · exact lamp
  · exact lamp
  · exact .setFan ..
  · exact .leaveSettling ..

theorem SameReach.giveGrant (ch : Fin 25) (amount : Nat) (s : Part) : SameReach s (giveGrant ch amount s) :=
  (SameReach.setArbiter ..).trans (.handGrant ch _)

theorem SameReach.grantHeads (n : Nat) (s : Part) : SameReach s (grantHeads n s) := by
  induction n generalizing s with
  | zero => exact .refl s
  | succ n ih =>
    unfold Machine.grantHeads
    split
    · exact .refl s
    · exact .ite (((SameReach.setArbiter ..).trans (.giveGrant ..)).trans (ih _)) (.refl s)

theorem SameReach.grantPass (s : Part) : SameReach s (grantPass s) := .grantHeads ..

theorem SameReach.passAfter {s t : Part} (old : Part) (h : SameReach s t) : SameReach s (passAfter old t) :=
  .ite h (h.trans (.grantPass t))

theorem SameReach.makeClaim (ch : Fin 25) (amount : Nat) (s : Part) : SameReach s (makeClaim ch amount s) :=
  .ite ((SameReach.setArbiter ..).trans (.grantPass _))
    (.ite (.giveGrant ..) ((SameReach.setArbiter ..).trans (.grantPass _)))

theorem SameReach.undrive (g : Fin 4) (st : GaugeState) (s : Part) : SameReach s (undrive g st s) := .setGauge ..

theorem SameReach.handShed (ch : Fin 25) (s : Part) : SameReach s (handShed ch s) := by
  have lamp : SameReach s
      (Machine.settleLights (s.setChan ch { s.chan ch with state := .shed, bulbOut := false, measured := 0 })) :=
    (SameReach.setChan ..).trans (.settleLights _)
  unfold Machine.handShed
  split
  · exact lamp
  · exact lamp
  · exact .setFan ..
  · unfold gaugeShed
    split
    · exact .undrive ..
    · exact .undrive ..
    · exact .undrive ..
    · exact .undrive ..
    · exact .refl s
    · exact .refl s

theorem SameReach.shedSome (n : Nat) (s : Part) : SameReach s (shedSome n s) := by
  induction n generalizing s with
  | zero => exact .refl s
  | succ n ih =>
    unfold Machine.shedSome
    refine .ite (.refl s) ?_
    split
    · exact .refl s
    · rename_i ch _
      have shed : SameReach s (shedOne ch s) := (SameReach.setArbiter ..).trans (.handShed ch _)
      exact shed.trans (ih _)

theorem SameReach.setLimit (new : Nat) (s : Part) : SameReach s (setLimit new s) := by
  have limited : SameReach s (s.setArbiter { s.arbiter with limit := new }) := .setArbiter ..
  exact .ite (.refl s)
    (SameReach.trans (.ite (limited.trans (.grantPass _)) (limited.trans (.shedSome _ _))) (.syncConds _))

theorem SameReach.selectLimit (s : Part) : SameReach s (selectLimit s) := .setLimit ..

/-! ### Channels and lamp logic -/

theorem SameReach.startRefresh (ch : Fin 25) (s : Part) : SameReach s (startRefresh ch s) :=
  .ite (.onLampNode _ _ _ fun _ => rfl) (.refl s)

theorem SameReach.claimChan (ch : Fin 25) (s : Part) : SameReach s (claimChan ch s) := by
  have started := fun c => (SameReach.setChan s ch c).trans (.startRefresh ch _)
  exact .ite (((started _).trans (.noteFault ch _)).trans (.settleLights _)) ((started _).trans (.makeClaim ..))

theorem SameReach.turnOff (ch : Fin 25) (s : Part) : SameReach s (turnOff ch s) :=
  .passAfter s (((SameReach.setChan s ch Chan.off).trans (.setArbiter ..)).trans (.settleLights _))

theorem SameReach.setDemand (ch : Fin 25) (d : Demand) (s : Part) : SameReach s (setDemand ch d s) := by
  have handed : SameReach s (s.setChan ch { s.chan ch with demand := d }) := .setChan ..
  have lit := handed.trans (.settleLights _)
  exact .ite (.refl s) (.ite (.turnOff ch s) (.ite (.ite handed (handed.trans (.claimChan ch _)))
    (.ite (lit.trans (.noteFault ch _)) lit)))

theorem SameReach.handResults (s : Part) : SameReach s (handResults s) := by
  have demands : SameReach s (s.changedChans.foldl handDemand s) := .foldl (fun t ch => .setDemand ch _ t) _ s
  have rest : ∀ t, SameReach t (flasherRest t) := fun t => .ite (.refl t) (.of_eq rfl rfl rfl id)
  exact .ite (demands.trans (rest _)) (.refl s)

theorem SameReach.evaluateRules (s : Part) : SameReach s (evaluateRules s) :=
  .ite (.refl s) (((SameReach.setLamps ..).trans (.handResults _)).trans (.setLamps ..))

/-! ### Fan -/

theorem SameReach.fanStep (s : Part) : SameReach s (fanStep s) := by
  unfold Machine.fanStep
  dsimp only
  split
  · exact .setFan ..
  · exact (SameReach.setFan ..).trans (.makeClaim ..)

theorem SameReach.stopFan (s : Part) : SameReach s (stopFan s) :=
  .passAfter s ((SameReach.setArbiter ..).trans (.setFan ..))

theorem SameReach.cutFan (target : Nat) (s : Part) : SameReach s (cutFan target s) :=
  .passAfter s ((SameReach.setArbiter ..).trans (.setFan ..))

theorem SameReach.raiseFan (target : Nat) (s : Part) : SameReach s (raiseFan target s) := by
  have lowered := fun a f => (SameReach.setArbiter s a).trans (.setFan _ f)
  unfold Machine.raiseFan
  refine .ite ?_ (.passAfter s (lowered _ _))
  split
  · exact ((lowered _ _).trans ((SameReach.setArbiter ..).trans (.setFan ..))).trans (.grantPass _)
  · exact .passAfter s ((lowered _ _).trans ((SameReach.setArbiter ..).trans (.setFan ..)))

theorem SameReach.reclaimFan (target : Nat) (s : Part) : SameReach s (reclaimFan target s) :=
  (SameReach.setFan ..).trans (.makeClaim ..)

theorem SameReach.setTarget (target : Nat) (s : Part) : SameReach s (setTarget target s) := by
  unfold Machine.setTarget
  refine .ite (.refl s) ?_
  split
  · exact (SameReach.setFan ..).trans (.fanStep _)
  · exact .ite (.stopFan s) (.reclaimFan _ s)
  · exact .ite (.stopFan s) (.ite (.cutFan _ s) (.raiseFan _ s))
  · exact .ite (.stopFan s) (.ite (.cutFan _ s) ((SameReach.setFan ..).trans (.fanStep _)))
  · exact .ite (.stopFan s) (.setFan ..)
  · exact .setFan ..

theorem SameReach.selectFan (s : Part) : SameReach s (selectFan s) :=
  .ite (.refl s) (.ite (.setFan ..) (.setTarget _ s))

/-! ### Gauges -/

theorem SameReach.startTest (s : Part) (g : Fin 4) : SameReach s (startTest s g) :=
  .ite ((SameReach.setGauge ..).trans (.makeClaim ..)) (.refl s)

theorem SameReach.markLost (g : Fin 4) (b : Bool) (s : Part) : SameReach s (markLost g b s) := .setGauge ..

theorem SameReach.parkNow (g : Fin 4) (s : Part) : SameReach s (parkNow g s) :=
  (SameReach.undrive ..).trans (.setArbiter ..)

theorem SameReach.loseSender (s : Part) (g : Fin 4) : SameReach s (loseSender s g) := by
  have parked : SameReach s (Machine.markLost g true (Machine.parkNow g s)) :=
    (SameReach.parkNow g s).trans (.markLost ..)
  unfold Machine.loseSender
  dsimp only
  split
  iterate 2
    split
    · exact .setGauge ..
    · split
      · exact .setGauge ..
      · exact parked
  · exact parked
  · exact .markLost ..
  · exact .refl s
  · exact .refl s

theorem SameReach.regainSender (s : Part) (g : Fin 4) : SameReach s (regainSender s g) := by
  unfold Machine.regainSender
  dsimp only
  split
  · exact .setGauge ..
  · exact .ite (.setGauge ..) (.refl s)
  · exact (SameReach.markLost ..).trans (.startTest _ g)
  · exact .refl s
  · exact .refl s
  · exact .refl s

theorem SameReach.followSenders (s : Part) : SameReach s (followSenders s) :=
  (SameReach.passAfter s (.foldl .loseSender _ s)).trans (.foldl .regainSender _ _)

theorem SameReach.parkForIgnition (s : Part) (g : Fin 4) : SameReach s (parkForIgnition s g) := by
  unfold Machine.parkForIgnition
  refine SameReach.trans ?_ (.markLost ..)
  split
  iterate 3
    split
    · exact .setGauge ..
    · exact .parkNow ..
  · split
    · exact .refl s
    · exact .parkNow ..
  · exact .parkNow ..
  · exact .refl s

theorem SameReach.resumeGauge (s : Part) (g : Fin 4) : SameReach s (resumeGauge s g) := by
  unfold Machine.resumeGauge
  dsimp only
  split
  · refine .ite (.setGauge ..) ?_
    split
    · exact .setGauge ..
    · exact .markLost ..
  · exact .startTest ..
  · exact .refl s
  · exact .refl s
  · exact .refl s
  · exact .refl s

theorem SameReach.gaugesFollowMode (s : Part) : SameReach s (gaugesFollowMode s) :=
  .ite (.foldl .resumeGauge _ s) (.passAfter s (.foldl .parkForIgnition _ s))

/-! ### Power manager -/

theorem SameReach.handBlocks (was : Mode) (s : Part) : SameReach s (handBlocks was s) := by
  have ruled := (SameReach.evaluateRules s).trans (.selectFan _)
  exact .ite (ruled.trans (.foldl .startTest _ _)) (ruled.trans (.gaugesFollowMode _))

theorem SameReach.handMode (was : Mode) (s : Part) : SameReach s (handMode was s) :=
  .ite ((SameReach.selectLimit s).trans (.handBlocks was _))
    (((SameReach.handBlocks was s).trans (.syncConds _)).trans (.selectLimit _))

theorem SameReach.wakeTo (mode : Mode) (s : Part) : SameReach s (wakeTo mode s) := by
  have moded : SameReach s (s.setPower { s.power with
      mode := mode, quiet := none, reference := true, interval := s.startSettling }) := .setPower s _ id
  have lit : ∀ t, SameReach t (lightTxs t) := fun t => .of_eq rfl rfl rfl id
  exact (moded.trans (lit _)).trans (.handMode _ _)

theorem SameReach.cancelDeferral (s : Part) : SameReach s (cancelDeferral s) :=
  .ite ((SameReach.setPower s { s.power with deferral := false } fun _ => rfl).trans (.answerSleep ..)) (.refl s)

theorem SameReach.evaluate (s : Part) : SameReach s (evaluate s) := by
  have rise : ∀ t, SameReach t (demandRise t) := fun t => by
    unfold demandRise
    split
    · exact .cancelDeferral t
    · exact .wakeTo ..
    · exact .refl t
    · exact .refl t
    · exact .refl t
  exact .ite ((SameReach.evaluateRules s).trans (rise _)) (.evaluateRules s)

theorem SameReach.restartIdle (s : Part) : SameReach s (restartIdle s) := by
  unfold Machine.restartIdle
  split
  · exact .setPower s _ id
  · exact .refl s
  · exact .refl s

theorem SameReach.enterDormant (s : Part) : SameReach s (enterDormant s) := by
  have moded : SameReach s (s.setPower { s.power with
      mode := Mode.dormant, deferral := false, reference := false, settled := false, interval := .none }) :=
    .setPower s _ fun _ => rfl
  have off : ∀ t, SameReach t (forceOff t) := fun t => by
    have records : SameReach t (t.setLampNodes (t.channels.lampNodes.map (·.cleared))) :=
      .setLampNodes t _ fun _ => rfl
    exact records.trans (.of_eq rfl rfl rfl id)
  exact ((moded.trans (off _)).trans (.handMode _ _)).trans (.answerSleep _ _)

theorem SameReach.finish (s : Part) : SameReach s (finish s) := by
  have quiet : ∀ t, SameReach t (followQuiet t) := fun t => .setPower t _ id
  have idle : ∀ t, SameReach t (followIdle t) := fun t => .setPower t _ id
  have deferred : ∀ t, SameReach t (testDeferral t) := fun t => .ite (.enterDormant t) (.refl t)
  exact (((SameReach.syncConds s).trans (deferred _)).trans (quiet _)).trans (idle _)

theorem SameReach.deliverNotice (old s : Part) : SameReach s (deliverNotice old s) := by
  have fan : ∀ t, SameReach s t → SameReach s
      (if listed old s s.tables.fan.input then Machine.selectFan t else t) := fun t h => .ite (h.trans (.selectFan t)) h
  have evaluated := fan _ (.evaluate s)
  exact .ite (.ite (evaluated.trans (.restartIdle _)) evaluated) (.refl s)

theorem SameReach.followFreshness (s : Part) : SameReach s (followFreshness s) := .of_eq rfl rfl rfl id

theorem SameReach.followRoom (s : Part) : SameReach s (followRoom s) := .ite (.setCond ..) (.refl s)

end Sys2Proof.Machine
end

section
/-! A channel left out of what the blocks do with other channels: its claims, its grant, its live fields and its gauge
(04: R73; 05: R85 to R90; 08: R144). -/

namespace Sys2Proof.Machine

/-! ### The relation -/

/-- The waiting claims of a channel, in queue order. -/
def Part.queued (s : Part) (ch : Fin 25) : List Claim := s.arbiter.claims.filter (·.chan == ch)

theorem claimOf_eq (s : Part) (ch : Fin 25) : s.claimOf ch = (s.queued ch).head? := List.head?_filter.symm

theorem claimOf_none_iff (s : Part) (ch : Fin 25) : s.claimOf ch = none ↔ s.queued ch = [] := by
  rw [claimOf_eq, List.head?_eq_none_iff]

/-- A channel apart from its overload timer. -/
def Chan.untimed (c : Chan) : Chan := { c with overload := none }

/-- A channel is left alone, but for an overload timer that is reset. -/
structure Leaves (ch : Fin 25) (s t : Part) : Prop where
  queued : t.queued ch = s.queued ch
  grant : t.grant ch = s.grant ch
  chan : (t.chan ch).untimed = (s.chan ch).untimed
  timer : (s.chan ch).overload = none → (t.chan ch).overload = none
  gauge : ∀ g, gaugeChan g = ch → t.gauge g = s.gauge g

theorem untimed_field {α : Type} (f : Chan → α) (hf : ∀ c : Chan, f c.untimed = f c) {c d : Chan}
    (h : c.untimed = d.untimed) : f c = f d := by
  rw [← hf c, h, hf]

theorem untimed_state {c d : Chan} (h : c.untimed = d.untimed) : c.state = d.state :=
  untimed_field Chan.state (fun _ => rfl) h

theorem untimed_demand {c d : Chan} (h : c.untimed = d.untimed) : c.demand = d.demand :=
  untimed_field Chan.demand (fun _ => rfl) h

theorem Leaves.refl (ch : Fin 25) (s : Part) : Leaves ch s s := ⟨rfl, rfl, rfl, id, fun _ _ => rfl⟩

theorem Leaves.trans {ch : Fin 25} {s t u : Part} (h : Leaves ch s t) (k : Leaves ch t u) : Leaves ch s u where
  queued := k.queued.trans h.queued
  grant := k.grant.trans h.grant
  chan := k.chan.trans h.chan
  timer := k.timer ∘ h.timer
  gauge g e := (k.gauge g e).trans (h.gauge g e)

theorem Leaves.foldl {α : Type} {ch : Fin 25} {f : Part → α → Part} (xs : List α)
    (hf : ∀ x ∈ xs, ∀ s, Leaves ch s (f s x)) (s : Part) : Leaves ch s (xs.foldl f s) := by
  induction xs generalizing s with
  | nil => exact .refl ch s
  | cons x xs ih =>
    obtain ⟨first, rest⟩ := List.forall_mem_cons.1 hf
    exact (first s).trans (ih rest _)

theorem Leaves.ite {ch : Fin 25} {s a b : Part} {c : Prop} [Decidable c] (ha : Leaves ch s a) (hb : Leaves ch s b) :
    Leaves ch s (if c then a else b) := by
  split
  · exact ha
  · exact hb

/-! ### Single updates -/

section
variable {ch : Fin 25} (s : Part)

/-- An update apart from the budget, the live fields and the gauges. -/
theorem Leaves.of_eq {t : Part} (arbiter : t.arbiter = s.arbiter) (chans : t.channels.chans = s.channels.chans)
    (gauges : t.gauges = s.gauges) : Leaves ch s t where
  queued := by unfold Part.queued; rw [arbiter]
  grant := by unfold Part.grant; rw [arbiter]
  chan := by unfold Part.chan; rw [chans]
  timer := by unfold Part.chan; rw [chans]; exact id
  gauge g _ := by unfold Part.gauge; rw [gauges]

theorem Leaves.setLampNodes (rs : List LampNode) : Leaves ch s (s.setLampNodes rs) := .of_eq s rfl rfl rfl

theorem Leaves.setFlasher (f : Flasher) : Leaves ch s (s.setFlasher f) := .of_eq s rfl rfl rfl

theorem Leaves.setFan (f : Fan) : Leaves ch s (s.setFan f) := .of_eq s rfl rfl rfl

theorem Leaves.setChan {k : Fin 25} (c : Chan) (other : k ≠ ch) : Leaves ch s (s.setChan k c) := by
  have same : (s.setChan k c).chan ch = s.chan ch := setChan_ne s c other
  exact ⟨rfl, rfl, by rw [same], by rw [same]; exact id, fun _ _ => rfl⟩

theorem Leaves.setGauge {g : Fin 4} (r : Gauge) (other : gaugeChan g ≠ ch) : Leaves ch s (s.setGauge g r) :=
  ⟨rfl, rfl, rfl, id, fun _ e => setGauge_ne s r fun same => other (same ▸ e)⟩

/-- An update of the budget that leaves the claims and the grant of the channel. -/
theorem Leaves.setArbiter (a : Arbiter) (claims : a.claims.filter (·.chan == ch) = s.queued ch)
    (grant : a.grants.get ch = s.grant ch) : Leaves ch s (s.setArbiter a) :=
  ⟨claims, grant, rfl, id, fun _ _ => rfl⟩

/-! ### The budget -/

theorem unclaim_queued (a : Arbiter) (k ch : Fin 25) : (a.unclaim k).claims.filter (·.chan == ch) =
    if k = ch then [] else a.claims.filter (·.chan == ch) := by
  show (a.claims.filter _).filter _ = _
  rw [List.filter_filter]
  split
  · rename_i same
    exact List.filter_eq_nil_iff.2 fun c _ => by simp [same]
  · rename_i other
    refine List.filter_congr fun c _ => ?_
    by_cases e : c.chan = ch
    · simp [e, Ne.symm other]
    · simp [e]

theorem Leaves.vacate {k : Fin 25} (other : k ≠ ch) : Leaves ch s (s.setArbiter (s.arbiter.vacate k)) :=
  .setArbiter s _ ((unclaim_queued ..).trans (if_neg other)) ((vacate_grants ..).trans (if_neg other))

theorem Leaves.reprice {k : Fin 25} (amount : Nat) (other : k ≠ ch) :
    Leaves ch s (s.setArbiter (s.arbiter.reprice k amount)) := by
  refine .setArbiter s _ ?_ rfl
  show (s.arbiter.claims.map _).filter _ = s.arbiter.claims.filter _
  induction s.arbiter.claims with
  | nil => rfl
  | cons c cs ih =>
    rw [List.map_cons, List.filter_cons, List.filter_cons, ih]
    by_cases e : c.chan = k
    · simp [e, other]
    · rw [if_neg e]

theorem insertClaim_filter {p : Claim → Bool} {c : Claim} (h : p c = false) (cs : List Claim) :
    (insertClaim c cs).filter p = cs.filter p := by
  have out : ∀ xs, (c :: xs).filter p = xs.filter p := fun xs => List.filter_cons_of_neg (by rw [h]; decide)
  induction cs with
  | nil => exact out []
  | cons x xs ih =>
    unfold insertClaim
    split
    · exact out _
    · rw [List.filter_cons, List.filter_cons, ih]

theorem Leaves.insertClaim {c : Claim} (other : c.chan ≠ ch) :
    Leaves ch s (s.setArbiter { s.arbiter with claims := Machine.insertClaim c s.arbiter.claims }) :=
  .setArbiter s _ (insertClaim_filter (by simpa using other) _) rfl

/-- The head of the claim queue taken out, where it is another channel's. -/
theorem Leaves.popClaim {c : Claim} {cs : List Claim} (claims : s.arbiter.claims = c :: cs) (other : c.chan ≠ ch) :
    Leaves ch s (s.setArbiter { s.arbiter with claims := cs }) := by
  refine .setArbiter s _ ?_ rfl
  unfold Part.queued
  rw [claims]
  exact (List.filter_cons_of_neg (by simpa using other)).symm

theorem Leaves.give {k : Fin 25} (amount : Nat) (other : k ≠ ch) :
    Leaves ch s (s.setArbiter (s.arbiter.give k amount)) :=
  .setArbiter s _ rfl (put_get_ne _ _ other)

/-! ### Lights -/

theorem Leaves.queueOwn (e : OwnEntry) (p : Port) : Leaves ch s (queueOwn e s p) :=
  .ite (.refl ch s) (.of_eq s rfl rfl rfl)

theorem Leaves.commandNode (n : Nat) : Leaves ch s (commandNode s n) := by
  unfold Machine.commandNode
  split
  · exact .refl ch s
  · have sent : ∀ b, Leaves ch s (originate n b s) := fun b => .foldl _ (fun p _ t => .queueOwn t _ p) s
    exact .ite (.refl ch s) ((sent _).trans (.setLampNodes ..))

theorem Leaves.refreshMasks : Leaves ch s (refreshMasks s) :=
  (Leaves.setLampNodes s _).trans (.foldl _ (fun n _ t => .commandNode t n) _)

theorem dropTimers_chan (s : Part) (ch : Fin 25) : (dropTimers s).chan ch =
    if s.lit ch then s.chan ch else { s.chan ch with overload := none } := tab_get ..

theorem Leaves.dropTimers : Leaves ch s (dropTimers s) := by
  refine ⟨rfl, rfl, ?_, fun none => ?_, fun _ _ => rfl⟩
  · rw [dropTimers_chan]
    split <;> rfl
  · rw [dropTimers_chan]
    split
    · exact none
    · rfl

theorem Leaves.flashStart : Leaves ch s (flashStart s) := .ite (.of_eq s rfl rfl rfl) (.refl ch s)

theorem Leaves.settleLights : Leaves ch s (settleLights s) :=
  ((Leaves.flashStart s).trans (.dropTimers _)).trans (.refreshMasks _)

theorem Leaves.noteFault (k : Fin 25) : Leaves ch s (noteFault k s) := .ite (.setFlasher s _) (.refl ch s)

theorem Leaves.startRefresh (k : Fin 25) : Leaves ch s (startRefresh k s) := .ite (.setLampNodes s _) (.refl ch s)

/-! ### Grants to other channels -/

theorem kindOf_gauge {k : Fin 25} {g : Fin 4} (h : kindOf k = .gauge g) : gaugeChan g = k := by
  unfold kindOf at h
  split at h
  · cases h
  · split at h
    · cases h
    · split at h
      · cases h
        exact Fin.ext (by show 13 + (k.val - 13) = k.val; omega)
      · cases h

theorem Leaves.leaveSettling {g : Fin 4} (other : gaugeChan g ≠ ch) : Leaves ch s (leaveSettling g s) :=
  .ite (.setGauge s _ other) (.refl ch s)

theorem Leaves.handGrant {k : Fin 25} (other : k ≠ ch) : Leaves ch s (handGrant k s) := by
  have lamp : Leaves ch s (Machine.settleLights (s.setChan k { s.chan k with state := .on })) :=
    (Leaves.setChan s _ other).trans (.settleLights _)
  unfold Machine.handGrant
  split
  · exact lamp
  · exact lamp
  · exact .setFan ..
  · rename_i g kind
    exact .leaveSettling s (by rw [kindOf_gauge kind]; exact other)

theorem Leaves.giveGrant {k : Fin 25} (amount : Nat) (other : k ≠ ch) : Leaves ch s (giveGrant k amount s) :=
  (Leaves.give s amount other).trans (.handGrant _ other)

/-! ### Losses of other channels -/

/-- A channel whose node is lost changes in these states alone (04: R73). -/
def ChanState.losable : ChanState → Bool
  | .waiting | .on | .shed => true
  | .off | .ramping | .fault | .unreachable => false

theorem loseChan_idle {k : Fin 25} (h : (s.chan k).state.losable = false) : loseChan s k = s := by
  unfold loseChan
  cases state : (s.chan k).state with
  | off | ramping | fault | unreachable => rfl
  | waiting | on | shed =>
    rw [state] at h
    cases h

theorem loseChan_eq {k : Fin 25} (h : (s.chan k).state.losable = true) : loseChan s k = Machine.noteFault k
    ((s.setChan k { s.chan k with state := .unreachable, bulbOut := false, measured := 0 }).setArbiter
      (s.arbiter.vacate k)) := by
  unfold loseChan
  cases state : (s.chan k).state with
  | waiting | on | shed => rfl
  | off | ramping | fault | unreachable =>
    rw [state] at h
    cases h

theorem Leaves.loseChan {k : Fin 25} (h : k = ch → (s.chan ch).state.losable = false) :
    Leaves ch s (loseChan s k) := by
  cases losable : (s.chan k).state.losable with
  | false =>
    rw [loseChan_idle s losable]
    exact .refl ch s
  | true =>
    rw [loseChan_eq s losable]
    have other : k ≠ ch := fun same => by
      subst same
      exact Bool.noConfusion ((h rfl).symm.trans losable)
    exact ((Leaves.setChan s _ other).trans (.vacate _ other)).trans (.noteFault _ k)

theorem Leaves.loseChans (ks : List (Fin 25)) (h : ch ∈ ks → (s.chan ch).state.losable = false) :
    Leaves ch s (ks.foldl Machine.loseChan s) := by
  induction ks generalizing s with
  | nil => exact .refl ch s
  | cons k ks ih =>
    have first := Leaves.loseChan (ch := ch) (k := k) s fun same => h (same ▸ List.mem_cons_self)
    refine first.trans (ih _ fun mem => ?_)
    rw [untimed_state first.chan]
    exact h (List.mem_cons_of_mem _ mem)

/-- The loss of a node is a matter of its channels in use. -/
theorem Leaves.loseNode {n : Nat} (h : ch ∈ s.remotesOf n → (s.chan ch).state.losable = false) :
    Leaves ch s (loseNode s n) := by
  have noted : Leaves ch s (s.onLampNode n fun r => { r with reachable := false }) := .setLampNodes ..
  exact (noted.trans (.loseChans _ _ h)).trans (.settleLights _)

end

/-! ### The loss of the channel -/

/-- The live fields of a channel whose node is lost (04: R73). -/
def Chan.lost (c : Chan) : Chan :=
  { c with state := .unreachable, bulbOut := false, measured := 0, overload := none }

/-- A channel whose node is lost: no claim, no grant, UNREACHABLE. -/
structure Part.lost (s : Part) (ch : Fin 25) (c : Chan) : Prop where
  queued : s.queued ch = []
  grant : s.grant ch = 0
  chan : (s.chan ch).untimed = c.lost.untimed

/-- What leaves the channel alone leaves it lost. -/
theorem Part.lost.leaves {s t : Part} {ch : Fin 25} {c : Chan} (h : s.lost ch c) (k : Leaves ch s t) : t.lost ch c :=
  ⟨k.queued.trans h.queued, k.grant.trans h.grant, k.chan.trans h.chan⟩

theorem lost_losable {s : Part} {ch : Fin 25} {c : Chan} (h : s.lost ch c) : (s.chan ch).state.losable = false := by
  rw [untimed_state h.chan]
  rfl

/-- The channel loses its claim and its grant with its node. -/
theorem loseChan_lost (s : Part) (ch : Fin 25) (h : (s.chan ch).state.losable = true) :
    (loseChan s ch).lost ch (s.chan ch) := by
  rw [loseChan_eq s h]
  refine Part.lost.leaves ⟨?_, ?_, ?_⟩ (.noteFault _ ch)
  · exact (unclaim_queued ..).trans (if_pos rfl)
  · exact (vacate_grants ..).trans (if_pos rfl)
  · have written := setChan_chan s ch { s.chan ch with state := .unreachable, bulbOut := false, measured := 0 }
    have untimed := congrArg Chan.untimed written
    exact untimed

theorem remotesOf_nodup (s : Part) (n : Nat) : (s.remotesOf n).Nodup :=
  ((List.nodup_finRange 25).filter _).filter _

theorem mem_remotesOf {s : Part} {n : Nat} {ch : Fin 25} : ch ∈ s.remotesOf n ↔
    17 ≤ ch.val ∧ 0 < (s.chanCfg ch).nominal ∧ (s.chanCfg ch).node = n := by
  unfold Part.remotesOf remoteChans allChans
  simp [and_comm]

/-- The state of the channel before its own turn is that before the turns of the others. -/
theorem lost_untimed {s : Part} {ch : Fin 25} {c d : Chan} (h : s.lost ch c) (same : c.untimed = d.untimed) :
    s.lost ch d := by
  refine ⟨h.queued, h.grant, h.chan.trans ?_⟩
  show c.untimed.lost.untimed = d.untimed.lost.untimed
  rw [same]

theorem kindOf_remote {ch : Fin 25} (h : 17 ≤ ch.val) : kindOf ch = .remote := by
  unfold kindOf
  rw [if_neg (by omega), if_neg (by omega), dif_neg (by omega)]

theorem unlit_of_state {s : Part} {ch : Fin 25} (remote : kindOf ch = .remote) (h : (s.chan ch).state ≠ .on) :
    s.lit ch = false := by
  unfold Part.lit litBy
  rw [remote]
  simp [h]

/-- The overload timer of an output that is not lit is reset (04: R69). -/
theorem settleLights_timer {s : Part} {ch : Fin 25} (remote : kindOf ch = .remote) (h : (s.chan ch).state ≠ .on) :
    ((settleLights s).chan ch).overload = none := by
  have started : Leaves ch s (flashStart s) := .flashStart s
  have off : (flashStart s).lit ch = false := unlit_of_state remote (by rw [untimed_state started.chan]; exact h)
  refine (Leaves.refreshMasks (dropTimers (flashStart s))).timer ?_
  rw [dropTimers_chan, off]
  rfl

/-- A channel in use of a node that is lost. -/
theorem loseNode_lost {s : Part} {n : Nat} {ch : Fin 25} (mem : ch ∈ s.remotesOf n)
    (h : (s.chan ch).state.losable = true) :
    (loseNode s n).lost ch (s.chan ch) ∧ ((loseNode s n).chan ch).overload = none := by
  obtain ⟨pre, post, split, fresh⟩ := List.eq_append_cons_of_mem mem
  have apart : ch ∉ post := by
    have nodup := remotesOf_nodup s n
    rw [split] at nodup
    exact (List.nodup_cons.1 (List.nodup_append.1 nodup).2.1).1
  let s1 := s.onLampNode n fun r => { r with reachable := false }
  have noted : Leaves ch s s1 := .setLampNodes ..
  have before : Leaves ch s (pre.foldl loseChan s1) := noted.trans (.loseChans s1 pre fun m => absurd m fresh)
  have own := loseChan_lost (pre.foldl loseChan s1) ch (by rw [untimed_state before.chan]; exact h)
  have after := own.leaves (.loseChans _ post fun m => absurd m apart)
  have folded : loseNode s n = settleLights (post.foldl loseChan (loseChan (pre.foldl loseChan s1) ch)) := by
    show settleLights ((s1.remotesOf n).foldl loseChan s1) = _
    rw [show s1.remotesOf n = s.remotesOf n from rfl, split, List.foldl_append, List.foldl_cons]
  rw [folded]
  refine ⟨lost_untimed (after.leaves (.settleLights _)) before.chan, settleLights_timer ?_ ?_⟩
  · exact kindOf_remote (mem_remotesOf.1 mem).1
  · rw [untimed_state after.chan]
    exact ChanState.noConfusion

theorem remotesOf_still {s t : Part} (h : Undisturbed s t) (n : Nat) : t.remotesOf n = s.remotesOf n := by
  unfold Part.remotesOf Part.chanCfg
  rw [h.tables]

/-- A remote channel is one of its own node only. -/
theorem remotesOf_node {s : Part} {n k : Nat} {ch : Fin 25} (h : ch ∈ s.remotesOf n) (h' : ch ∈ s.remotesOf k) :
    n = k := (mem_remotesOf.1 h).2.2.symm.trans (mem_remotesOf.1 h').2.2

/-- The loss of nodes leaves a channel of none of them, and one that no loss changes. -/
theorem Leaves.loseNodes {s : Part} {ns : List Nat} {ch : Fin 25}
    (h : (∃ n ∈ ns, ch ∈ s.remotesOf n) → (s.chan ch).state.losable = false) :
    Leaves ch s (ns.foldl Machine.loseNode s) := by
  induction ns generalizing s with
  | nil => exact .refl ch s
  | cons n ns ih =>
    have first := Leaves.loseNode (ch := ch) s fun mem => h ⟨n, List.mem_cons_self, mem⟩
    refine first.trans (ih fun ⟨k, hk, mem⟩ => ?_)
    rw [remotesOf_still (Reaction.loseNode s n).still] at mem
    rw [untimed_state first.chan]
    exact h ⟨k, List.mem_cons_of_mem _ hk, mem⟩

/-- A channel in use is lost with its node, whatever other nodes are lost. -/
theorem loseNodes_lost {s : Part} {ns : List Nat} {n : Nat} {ch : Fin 25} (node : n ∈ ns) (mem : ch ∈ s.remotesOf n)
    (h : (s.chan ch).state.losable = true) : (ns.foldl Machine.loseNode s).lost ch (s.chan ch) ∧
      ((ns.foldl Machine.loseNode s).chan ch).overload = none := by
  obtain ⟨pre, post, split, fresh⟩ := List.eq_append_cons_of_mem node
  have before : Leaves ch s (pre.foldl Machine.loseNode s) :=
    .loseNodes fun ⟨k, hk, other⟩ => absurd (remotesOf_node mem other ▸ hk) fresh
  have still : Undisturbed s (pre.foldl Machine.loseNode s) :=
    (Reaction.foldl (fun t k => .loseNode t k) pre s).still
  obtain ⟨own, timer⟩ := loseNode_lost (n := n) (by rw [remotesOf_still still]; exact mem)
    (by rw [untimed_state before.chan]; exact h)
  rw [split, List.foldl_append, List.foldl_cons]
  have after : Leaves ch _ (post.foldl Machine.loseNode (Machine.loseNode (pre.foldl Machine.loseNode s) n)) :=
    .loseNodes fun _ => lost_losable own
  exact ⟨lost_untimed (own.leaves after) before.chan, after.timer timer⟩

end Sys2Proof.Machine
end

section
/-! A channel that no operation names, when grants are made: without a claim it stays, with one it may come ON
(04: R73; 05: R85 to R90; 08: R135, R136, R144). -/

namespace Sys2Proof.Machine

/-! ### The relation -/

/-- A channel of a lamp node on its way to being lit: ON with its grant, or WAITING with its claim (04: R63, R64). -/
structure Part.pursues (s : Part) (c : Claim) (d : Demand) : Prop where
  remote : kindOf c.chan = .remote
  demand : (s.chan c.chan).demand = d
  granted : (s.chan c.chan).state = .on ∧ s.grant c.chan = c.amount ∧ s.queued c.chan = [] ∨
    (s.chan c.chan).state = .waiting ∧ s.grant c.chan = 0 ∧ s.queued c.chan = [c]

/-- What is done about other channels: without a claim the channel stays, and only a claim of its own changes it. -/
structure Spares (ch : Fin 25) (s t : Part) : Prop where
  idle : s.queued ch = [] → t.queued ch = [] ∧ t.grant ch = s.grant ch ∧ (t.chan ch).untimed = (s.chan ch).untimed
  timer : (s.chan ch).overload = none → (t.chan ch).overload = none
  pursued : ∀ c d, c.chan = ch → s.pursues c d → t.pursues c d
  gauge : ∀ g, gaugeChan g = ch → s.queued ch = [] ∨ (s.gauge g).state ≠ .settling → t.gauge g = s.gauge g
  begun : ∀ g, gaugeChan g = ch → (s.gauge g).state ≠ .parked →
    (t.gauge g).state ≠ .parked ∧ (t.gauge g).lostMark = (s.gauge g).lostMark

theorem Part.pursues.leaves {s t : Part} {c : Claim} {d : Demand} (h : s.pursues c d) (k : Leaves c.chan s t) :
    t.pursues c d := by
  refine ⟨h.remote, (untimed_demand k.chan).trans h.demand, ?_⟩
  rw [untimed_state k.chan, k.grant, k.queued]
  exact h.granted

theorem Leaves.spares {ch : Fin 25} {s t : Part} (h : Leaves ch s t) : Spares ch s t where
  idle none := ⟨h.queued.trans none, h.grant, h.chan⟩
  timer := h.timer
  pursued c d same k := k.leaves (same ▸ h)
  gauge g e _ := h.gauge g e
  begun g e k := by
    rw [h.gauge g e]
    exact ⟨k, rfl⟩

theorem Spares.refl (ch : Fin 25) (s : Part) : Spares ch s s := (Leaves.refl ch s).spares

theorem Spares.trans {ch : Fin 25} {s t u : Part} (h : Spares ch s t) (k : Spares ch t u) : Spares ch s u where
  idle none := by
    obtain ⟨none', grant, chan⟩ := h.idle none
    obtain ⟨none'', grant', chan'⟩ := k.idle none'
    exact ⟨none'', grant'.trans grant, chan'.trans chan⟩
  timer := k.timer ∘ h.timer
  pursued c d same := k.pursued c d same ∘ h.pursued c d same
  gauge g e still := by
    have same := h.gauge g e still
    refine (k.gauge g e ?_).trans same
    rw [same]
    exact still.imp_left fun none => (h.idle none).1
  begun g e away := by
    obtain ⟨away', mark⟩ := h.begun g e away
    obtain ⟨away'', mark'⟩ := k.begun g e away'
    exact ⟨away'', mark'.trans mark⟩

theorem Spares.foldl {α : Type} {ch : Fin 25} {f : Part → α → Part} (xs : List α)
    (hf : ∀ x ∈ xs, ∀ s, Spares ch s (f s x)) (s : Part) : Spares ch s (xs.foldl f s) := by
  induction xs generalizing s with
  | nil => exact .refl ch s
  | cons x xs ih =>
    obtain ⟨first, rest⟩ := List.forall_mem_cons.1 hf
    exact (first s).trans (ih rest _)

theorem Spares.ite {ch : Fin 25} {s a b : Part} {c : Prop} [Decidable c] (ha : Spares ch s a) (hb : Spares ch s b) :
    Spares ch s (if c then a else b) := by
  split
  · exact ha
  · exact hb

/-! ### Grants -/

theorem kindOf_gaugeChan (g : Fin 4) : kindOf (gaugeChan g) = .gauge g := by
  have low : 13 + g.val < 17 := by omega
  unfold kindOf gaugeChan
  rw [if_neg (show ¬ 13 + g.val < 12 by omega), if_neg (show ¬ 13 + g.val = 12 by omega), dif_pos low]
  exact congrArg ChanKind.gauge (Fin.ext (by show 13 + g.val - 13 = g.val; omega))

/-- What a grant does to the channel it is made to: a channel of a lamp node comes ON, a gauge may leave SETTLING. -/
structure Granted (ch : Fin 25) (s t : Part) : Prop where
  timer : (s.chan ch).overload = none → (t.chan ch).overload = none
  lit : kindOf ch = .remote → (t.chan ch).untimed = { (s.chan ch).untimed with state := .on }
  gauge : ∀ g, gaugeChan g = ch → (s.gauge g).state ≠ .settling → t.gauge g = s.gauge g
  begun : ∀ g, gaugeChan g = ch → (s.gauge g).state ≠ .parked →
    (t.gauge g).state ≠ .parked ∧ (t.gauge g).lostMark = (s.gauge g).lostMark

theorem Granted.light (ch : Fin 25) (s : Part) :
    Granted ch s (settleLights (s.setChan ch { s.chan ch with state := .on })) := by
  have written := setChan_chan s ch { s.chan ch with state := .on }
  have lit : Leaves ch (s.setChan ch { s.chan ch with state := .on }) _ := .settleLights _
  refine ⟨fun none => lit.timer ?_, fun _ => lit.chan.trans ?_, fun g e _ => lit.gauge g e, fun g e away => ?_⟩
  · rw [written]
    exact none
  · rw [written]
    rfl
  · rw [lit.gauge g e]
    exact ⟨away, rfl⟩

theorem entryState_ne_parked (c : GaugeCfg) : GaugeCfg.entryState c ≠ .parked := by
  unfold GaugeCfg.entryState
  split <;> exact GaugeState.noConfusion

theorem Granted.leaveSettling (g : Fin 4) (s : Part) : Granted (gaugeChan g) s (leaveSettling g s) := by
  have own : ∀ k, gaugeChan k = gaugeChan g → k = g := fun k e => by
    have both := kindOf_gaugeChan k
    rw [e, kindOf_gaugeChan g] at both
    cases both
    rfl
  have remote : kindOf (gaugeChan g) ≠ .remote := by
    rw [kindOf_gaugeChan]
    exact ChanKind.noConfusion
  unfold Machine.leaveSettling
  split
  · rename_i leaves
    refine ⟨id, fun h => absurd h remote, fun k e away => ?_, fun k e _ => ?_⟩
    · rw [own k e] at away
      exact absurd leaves.1 away
    · rw [own k e, setGauge_gauge]
      exact ⟨entryState_ne_parked _, rfl⟩
  · exact ⟨id, fun h => absurd h remote, fun _ _ _ => rfl, fun _ _ away => ⟨away, rfl⟩⟩

theorem handGrant_own (s : Part) (ch : Fin 25) : Granted ch s (handGrant ch s) := by
  unfold handGrant
  split
  · exact .light ch s
  · exact .light ch s
  · rename_i fan
    exact ⟨id, fun h => ChanKind.noConfusion (fan.symm.trans h), fun _ _ _ => rfl, fun _ _ away => ⟨away, rfl⟩⟩
  · rename_i g kind
    obtain rfl := kindOf_gauge kind
    exact .leaveSettling g s

theorem handGrant_arbiter (s : Part) (ch : Fin 25) : (handGrant ch s).arbiter = s.arbiter := by
  unfold handGrant
  split
  · exact settleLights_arbiter _
  · exact settleLights_arbiter _
  · rfl
  · unfold leaveSettling
    split <;> rfl

/-- The head of the claim queue granted. -/
def grantHead (c : Claim) (cs : List Claim) (s : Part) : Part :=
  giveGrant c.chan c.amount (s.setArbiter { s.arbiter with claims := cs })

theorem grantHead_arbiter (c : Claim) (cs : List Claim) (s : Part) : (grantHead c cs s).arbiter =
    { s.arbiter with claims := cs }.give c.chan c.amount := handGrant_arbiter ..

theorem grantHead_granted (c : Claim) (cs : List Claim) (s : Part) : Granted c.chan s (grantHead c cs s) := by
  obtain ⟨timer, lit, gauge, begun⟩ := handGrant_own
    ((s.setArbiter { s.arbiter with claims := cs }).setArbiter ({ s.arbiter with claims := cs }.give c.chan c.amount))
    c.chan
  exact ⟨timer, lit, gauge, begun⟩

/-- A granting step spares every channel: a claim of its own is what the step may grant. -/
theorem Spares.grantHead {ch : Fin 25} {s : Part} {c : Claim} {cs : List Claim} (claims : s.arbiter.claims = c :: cs) :
    Spares ch s (grantHead c cs s) := by
  by_cases own : c.chan = ch
  · subst own
    obtain ⟨timer, lit, gauge, begun⟩ := grantHead_granted c cs s
    have waits : s.queued c.chan = c :: cs.filter (·.chan == c.chan) := by
      unfold Part.queued
      rw [claims]
      exact List.filter_cons_of_pos (by simp)
    have busy : s.queued c.chan ≠ [] := by
      rw [waits]
      exact List.cons_ne_nil _ _
    refine ⟨fun none => absurd none busy, timer, fun c' d same k => ?_,
      fun g e still => gauge g e (still.resolve_left busy), begun⟩
    obtain ⟨remote, demand, granted⟩ := k
    rw [same] at remote demand granted
    rcases granted with ⟨-, -, none⟩ | ⟨-, zero, queue⟩
    · exact absurd none busy
    · rw [waits] at queue
      obtain ⟨head, tail⟩ := List.cons.inj queue
      subst head
      have chan := lit remote
      refine ⟨remote, (untimed_demand (d := { s.chan c.chan with state := .on }) chan).trans demand, .inl ⟨?_, ?_, ?_⟩⟩
      · exact untimed_state (d := { s.chan c.chan with state := .on }) chan
      · unfold Part.grant at zero ⊢
        rw [grantHead_arbiter]
        refine (put_get_same ..).trans ?_
        show s.arbiter.grants.get c.chan + c.amount = c.amount
        rw [zero, Nat.zero_add]
      · unfold Part.queued
        rw [grantHead_arbiter]
        exact tail
  · exact ((Leaves.popClaim s claims own).trans (.giveGrant _ c.amount own)).spares

theorem Spares.grantHeads {ch : Fin 25} (n : Nat) (s : Part) : Spares ch s (grantHeads n s) := by
  induction n generalizing s with
  | zero => exact .refl ch s
  | succ n ih =>
    unfold Machine.grantHeads
    split
    · exact .refl ch s
    · rename_i c cs claims
      exact .ite ((Spares.grantHead claims).trans (ih _)) (.refl ch s)

theorem Spares.grantPass {ch : Fin 25} (s : Part) : Spares ch s (grantPass s) := .grantHeads ..

theorem Spares.passAfter {ch : Fin 25} (old s : Part) : Spares ch s (passAfter old s) :=
  .ite (.refl ch s) (.grantPass s)

/-! ### Claims and returns of other channels -/

theorem Spares.makeClaim {ch k : Fin 25} (amount : Nat) (s : Part) (other : k ≠ ch) :
    Spares ch s (makeClaim k amount s) :=
  .ite ((Leaves.reprice s amount other).spares.trans (.grantPass _))
    (.ite (Leaves.giveGrant s amount other).spares ((Leaves.insertClaim s other).spares.trans (.grantPass _)))

theorem Spares.claimChan {ch k : Fin 25} (s : Part) (other : k ≠ ch) : Spares ch s (claimChan k s) := by
  have started := fun c => (Leaves.setChan s c other).trans (.startRefresh _ k)
  exact .ite (((started _).trans (.noteFault _ k)).trans (.settleLights _)).spares
    ((started _).spares.trans (.makeClaim _ _ other))

theorem Spares.regainChan {ch k : Fin 25} (s : Part) (h : k = ch → (s.chan ch).state ≠ .unreachable) :
    Spares ch s (regainChan s k) := by
  unfold Machine.regainChan
  split
  · rename_i gone
    exact .claimChan s fun same => h same (same ▸ gone)
  · exact .refl ch s

end Sys2Proof.Machine
end

section
/-! The return of a lamp node (04: R63, R73): its UNREACHABLE channels claim afresh, other channels stay. -/

namespace Sys2Proof.Machine

/-! ### Other nodes -/

theorem Spares.regainChans {ch : Fin 25} (ks : List (Fin 25)) (s : Part) (h : ch ∉ ks) :
    Spares ch s (ks.foldl Machine.regainChan s) :=
  .foldl ks (fun _ hk t => .regainChan t fun same => absurd (same ▸ hk) h) s

/-- A record of a node that can be reached. -/
def LampNode.back (r : LampNode) : LampNode := { r with reachable := true }

/-- The record of a node that can be reached again, and the LAMP_COMMAND to it. -/
def greetNode (n : Nat) (s : Part) : Part := commandNode (s.onLampNode n LampNode.back) n

theorem regainNode_eq (s : Part) (n : Nat) : regainNode s n = (s.remotesOf n).foldl regainChan (greetNode n s) := rfl

theorem Leaves.greetNode {ch : Fin 25} (n : Nat) (s : Part) : Leaves ch s (greetNode n s) :=
  (Leaves.setLampNodes s _).trans (.commandNode _ n)

theorem Spares.regainNode {ch : Fin 25} {s : Part} {n : Nat} (h : ch ∉ s.remotesOf n) : Spares ch s (regainNode s n) :=
  (Leaves.greetNode n s).spares.trans (.regainChans _ _ h)

theorem Spares.regainNodes {ch : Fin 25} {ns : List Nat} {s : Part} (h : ∀ n ∈ ns, ch ∉ s.remotesOf n) :
    Spares ch s (ns.foldl Machine.regainNode s) := by
  induction ns generalizing s with
  | nil => exact .refl ch s
  | cons n ns ih =>
    obtain ⟨first, rest⟩ := List.forall_mem_cons.1 h
    refine (Spares.regainNode first).trans (ih fun k hk => ?_)
    rw [remotesOf_still (Reaction.regainNode s n).still]
    exact rest k hk

/-! ### A channel on its way -/

theorem Part.pursues.regainChan {s : Part} {c : Claim} {d : Demand} (h : s.pursues c d) (k : Fin 25) :
    (regainChan s k).pursues c d := by
  refine (Spares.regainChan s fun _ gone => ?_).pursued c d rfl h
  rcases h.granted with ⟨state, -⟩ | ⟨state, -⟩ <;> exact ChanState.noConfusion (state.symm.trans gone)

theorem Part.pursues.regainChans {s : Part} {c : Claim} {d : Demand} (h : s.pursues c d) (ks : List (Fin 25)) :
    (ks.foldl Machine.regainChan s).pursues c d := by
  induction ks generalizing s with
  | nil => exact h
  | cons k ks ih => exact ih (h.regainChan k)

theorem Part.pursues.regainNode {s : Part} {c : Claim} {d : Demand} (h : s.pursues c d) (n : Nat) :
    (regainNode s n).pursues c d := (h.leaves (.greetNode n s)).regainChans _

theorem Part.pursues.regainNodes {s : Part} {c : Claim} {d : Demand} (h : s.pursues c d) (ns : List Nat) :
    (ns.foldl Machine.regainNode s).pursues c d := by
  induction ns generalizing s with
  | nil => exact h
  | cons n ns ih => exact ih (h.regainNode n)

/-! ### The claim -/

/-- The claim of a channel of a lamp node. -/
def Part.freshClaim (s : Part) (ch : Fin 25) : Claim :=
  { chan := ch, amount := s.nominal ch, cls := s.classOf ch, shed := false }

theorem waits_eq_false {s : Part} {ch : Fin 25} (h : s.queued ch = []) : s.arbiter.waits ch = false := by
  unfold Part.queued at h
  unfold Arbiter.waits
  simpa using h

theorem insertClaim_own {c : Claim} {cs : List Claim} (h : cs.filter (·.chan == c.chan) = []) :
    (insertClaim c cs).filter (·.chan == c.chan) = [c] := by
  have perm := (insertClaim_perm c cs).filter (·.chan == c.chan)
  rw [List.filter_cons_of_pos (by simp), h] at perm
  exact List.perm_singleton.1 perm

/-- A channel of a lamp node that claims is on its way. -/
theorem makeClaim_pursues {s : Part} {ch : Fin 25} (remote : kindOf ch = .remote) (state : (s.chan ch).state = .waiting)
    (zero : s.grant ch = 0) (none : s.queued ch = []) :
    (makeClaim ch (s.nominal ch) s).pursues (s.freshClaim ch) (s.chan ch).demand := by
  unfold makeClaim
  rw [waits_eq_false none]
  refine (if_neg Bool.false_ne_true).symm ▸ ?_
  split
  · let given := s.setArbiter (s.arbiter.give ch (s.nominal ch))
    obtain ⟨-, lit, -, -⟩ := handGrant_own given ch
    have chan := lit remote
    have arbiter : (giveGrant ch (s.nominal ch) s).arbiter = s.arbiter.give ch (s.nominal ch) := handGrant_arbiter ..
    refine ⟨remote, untimed_demand (d := { given.chan ch with state := .on }) chan, .inl ⟨?_, ?_, ?_⟩⟩
    · exact untimed_state (d := { given.chan ch with state := .on }) chan
    · unfold Part.grant at zero ⊢
      rw [arbiter]
      refine (put_get_same ..).trans ?_
      rw [zero, Nat.zero_add]
      rfl
    · unfold Part.queued at none ⊢
      rw [arbiter]
      exact none
  · refine (Spares.grantPass _).pursued _ _ rfl ⟨remote, rfl, .inr ⟨state, zero, ?_⟩⟩
    exact insertClaim_own none

/-- A channel of a lamp node that can be reached claims its whole nominal current. -/
theorem claimChan_pursues {s : Part} {ch : Fin 25} (remote : kindOf ch = .remote) (reached : s.unreachable ch = false)
    (zero : s.grant ch = 0) (none : s.queued ch = []) :
    (claimChan ch s).pursues (s.freshClaim ch) (s.chan ch).demand := by
  let waiting := startRefresh ch (s.setChan ch { s.chan ch with state := .waiting })
  have started : Leaves ch (s.setChan ch { s.chan ch with state := .waiting }) waiting := .startRefresh _ ch
  have written := setChan_chan s ch { s.chan ch with state := .waiting }
  have still : Undisturbed s waiting := ((Reaction.setChan s ch _).trans (.startRefresh ch _)).still
  have nominal : waiting.nominal ch = s.nominal ch := by
    unfold Part.nominal Part.chanCfg Part.gaugeCfg
    rw [still.tables]
  have fresh : waiting.freshClaim ch = s.freshClaim ch := by
    unfold Part.freshClaim Part.classOf Part.chanCfg
    rw [nominal, still.tables]
  have demand : (waiting.chan ch).demand = (s.chan ch).demand := by
    rw [untimed_demand started.chan, written]
  have claimed := makeClaim_pursues (s := waiting) remote (by rw [untimed_state started.chan, written])
    (started.grant.trans zero) (started.queued.trans none)
  rw [nominal, fresh, demand] at claimed
  unfold claimChan
  rw [reached]
  exact claimed

/-! ### The return of the node -/

theorem lampNode_some {s : Part} {n : Nat} {r : LampNode} (h : s.lampNode n = some r) :
    r ∈ s.channels.lampNodes ∧ r.node = n := by
  unfold Part.lampNode at h
  exact ⟨List.mem_of_find?_eq_some h, by simpa using List.find?_some h⟩

/-- What is known of the reachability of a node, read off the list of it. -/
theorem lampNode_reach (s : Part) (n : Nat) :
    (s.lampNode n).map LampNode.key = s.reach.find? (·.1 == n) := by
  unfold Part.lampNode Part.reach
  rw [List.find?_map]
  rfl

theorem lampNode_reachable {s t : Part} {n : Nat} (h : t.reach = s.reach) :
    (t.lampNode n).map LampNode.key = (s.lampNode n).map LampNode.key := by
  rw [lampNode_reach, lampNode_reach, h]

/-- The channels of a node that can be reached can. -/
theorem unreachable_eq_false {s : Part} {ch : Fin 25} {r : LampNode}
    (h : s.lampNode (s.chanCfg ch).node = some r) (reached : r.reachable = true) : s.unreachable ch = false := by
  unfold Part.unreachable
  rw [h]
  simp [reached]

theorem onLampNode_lampNode (s : Part) (n : Nat) (f : LampNode → LampNode) (hf : ∀ r, (f r).node = r.node) :
    (s.onLampNode n f).lampNode n = (s.lampNode n).map f := by
  unfold Part.lampNode Part.onLampNode Part.setLampNodes
  show (s.channels.lampNodes.map _).find? _ = _
  rw [List.find?_map]
  have same : ((fun r : LampNode => r.node == n) ∘ fun r => if r.node = n then f r else r) = fun r => r.node == n := by
    funext r
    by_cases h : r.node = n
    · simp [h, hf]
    · simp [h]
  rw [same]
  cases found : s.channels.lampNodes.find? fun r => r.node == n with
  | none => rfl
  | some r =>
    have named : r.node = n := by simpa using List.find?_some found
    simp [named]

/-- A node that is greeted can be reached. -/
theorem greetNode_reach {s : Part} {n : Nat} {r : LampNode} (h : s.lampNode n = some r) :
    ((greetNode n s).lampNode n).map LampNode.key = some (n, true) := by
  have named : r.node = n := (lampNode_some h).2
  have commanded := SameReach.commandNode (s.onLampNode n LampNode.back) n
  refine (lampNode_reachable commanded.reach).trans ?_
  rw [onLampNode_lampNode s n LampNode.back fun _ => rfl, h]
  exact congrArg (fun k => some (k, true)) named

/-- The turn of a channel of a node that is back: the node can be reached, and the channel has been spared. -/
theorem regainNode_turn {s : Part} {n : Nat} {ch : Fin 25} {r : LampNode} (record : s.lampNode n = some r)
    (mem : ch ∈ s.remotesOf n) : ∃ (t : Part) (post : List (Fin 25)),
      regainNode s n = post.foldl regainChan (regainChan t ch) ∧
      Spares ch s t ∧ Undisturbed s t ∧ (∃ r', t.lampNode n = some r') ∧ t.unreachable ch = false := by
  obtain ⟨pre, post, split, fresh⟩ := List.eq_append_cons_of_mem mem
  let t := pre.foldl regainChan (greetNode n s)
  have still : Undisturbed s t := by
    have reaction : Reaction s (greetNode n s) := (Reaction.onLampNode ..).trans (.commandNode _ n)
    exact (reaction.trans (.foldl (fun u k => .regainChan u k) pre _)).still
  have same : SameReach (greetNode n s) t := .foldl (fun u k => .ite (.claimChan k u) (.refl u)) pre _
  obtain ⟨r', found, key⟩ := Option.map_eq_some_iff.1
    ((lampNode_reachable (n := n) same.reach).trans (greetNode_reach record))
  refine ⟨t, post, ?_, (Leaves.greetNode n s).spares.trans (.regainChans pre _ fresh), still, ⟨r', found⟩,
    unreachable_eq_false (r := r') ?_ (congrArg Prod.snd key)⟩
  · rw [regainNode_eq, split, List.foldl_append, List.foldl_cons]
  · have node : (t.chanCfg ch).node = n := by
      unfold Part.chanCfg
      rw [still.tables]
      exact (mem_remotesOf.1 mem).2.2
    rw [node]
    exact found

theorem freshClaim_tables {s t : Part} (h : t.tables = s.tables) (ch : Fin 25) : t.freshClaim ch = s.freshClaim ch := by
  unfold Part.freshClaim Part.nominal Part.classOf Part.chanCfg Part.gaugeCfg
  rw [h]

theorem freshClaim_still {s t : Part} (h : Undisturbed s t) (ch : Fin 25) : t.freshClaim ch = s.freshClaim ch :=
  freshClaim_tables h.tables ch

/-- An UNREACHABLE channel of a node that is back claims afresh. -/
theorem regainNode_pursues {s : Part} {n : Nat} {ch : Fin 25} {r : LampNode} (record : s.lampNode n = some r)
    (mem : ch ∈ s.remotesOf n) (gone : (s.chan ch).state = .unreachable) (zero : s.grant ch = 0)
    (none : s.queued ch = []) : (regainNode s n).pursues (s.freshClaim ch) (s.chan ch).demand := by
  obtain ⟨t, post, turn, spared, still, -, reached⟩ := regainNode_turn record mem
  obtain ⟨none', zero', chan⟩ := spared.idle none
  have claimed := claimChan_pursues (kindOf_remote (mem_remotesOf.1 mem).1) reached (zero'.trans zero) none'
  rw [freshClaim_still still, untimed_demand chan] at claimed
  have own : regainChan t ch = claimChan ch t := if_pos ((untimed_state chan).trans gone)
  rw [turn, own]
  exact claimed.regainChans post

end Sys2Proof.Machine
end

section
/-! What the blocks do within a change of the link leaves power and management alone, and goes on refreshing a lamp
node in use (04: R75, R76). -/

namespace Sys2Proof.Machine

/-! ### The relation -/

/-- A lamp node in use whose refresh timer runs. -/
def Part.refreshes (s : Part) (n : Nat) : Prop :=
  s.nodeInUse n = true ∧ ∃ r, s.lampNode n = some r ∧ r.refresh ≠ none

/-- Power and management stay, no channel goes OFF, and a lamp node in use is refreshed on. -/
structure Within (s t : Part) : Prop where
  power : t.power = s.power
  mgmt : t.mgmt = s.mgmt
  used : ∀ ch, (s.chan ch).state ≠ .off → (t.chan ch).state ≠ .off
  refreshes : ∀ n, s.refreshes n → t.refreshes n

theorem Within.refl (s : Part) : Within s s := ⟨rfl, rfl, fun _ => id, fun _ => id⟩

theorem Within.trans {s t u : Part} (h : Within s t) (k : Within t u) : Within s u where
  power := k.power.trans h.power
  mgmt := k.mgmt.trans h.mgmt
  used ch := k.used ch ∘ h.used ch
  refreshes n := k.refreshes n ∘ h.refreshes n

theorem Within.foldl {α : Type} {f : Part → α → Part} (hf : ∀ s x, Within s (f s x)) (xs : List α) (s : Part) :
    Within s (xs.foldl f s) := by
  induction xs generalizing s with
  | nil => exact .refl s
  | cons x xs ih => exact (hf s x).trans (ih _)

theorem Within.ite {s a b : Part} {c : Prop} [Decidable c] (ha : Within s a) (hb : Within s b) :
    Within s (if c then a else b) := by
  split
  · exact ha
  · exact hb

/-! ### Single updates -/

/-- A node in use stays so where no channel goes OFF. -/
theorem nodeInUse_mono {s t : Part} (mgmt : t.mgmt = s.mgmt)
    (used : ∀ ch, (s.chan ch).state ≠ .off → (t.chan ch).state ≠ .off) (n : Nat) (h : s.nodeInUse n = true) :
    t.nodeInUse n = true := by
  unfold Part.nodeInUse at h ⊢
  obtain ⟨ch, mem, state⟩ := List.any_eq_true.1 h
  refine List.any_eq_true.2 ⟨ch, ?_, by simpa using used ch (by simpa using state)⟩
  unfold Part.remotesOf Part.chanCfg Part.tables at mem ⊢
  rw [mgmt]
  exact mem

/-- An update apart from the lamp-node records. -/
theorem Within.of_records {s t : Part} (records : t.channels.lampNodes = s.channels.lampNodes)
    (power : t.power = s.power) (mgmt : t.mgmt = s.mgmt)
    (used : ∀ ch, (s.chan ch).state ≠ .off → (t.chan ch).state ≠ .off) : Within s t where
  power := power
  mgmt := mgmt
  used := used
  refreshes n h := by
    obtain ⟨inUse, r, found, runs⟩ := h
    refine ⟨nodeInUse_mono mgmt used n inUse, r, ?_, runs⟩
    unfold Part.lampNode at found ⊢
    rw [records]
    exact found

theorem Within.of_eq {s t : Part} (channels : t.channels = s.channels) (power : t.power = s.power)
    (mgmt : t.mgmt = s.mgmt) : Within s t :=
  .of_records (by rw [channels]) power mgmt fun ch => by unfold Part.chan; rw [channels]; exact id

theorem Within.setChan (s : Part) (ch : Fin 25) (c : Chan) (h : c.state ≠ .off) : Within s (s.setChan ch c) := by
  refine .of_records rfl rfl rfl fun k state => ?_
  by_cases own : ch = k
  · subst own
    rw [setChan_chan]
    exact h
  · rw [setChan_ne s c own]
    exact state

theorem Within.setGauge (s : Part) (g : Fin 4) (r : Gauge) : Within s (s.setGauge g r) := .of_eq rfl rfl rfl

theorem Within.setArbiter (s : Part) (a : Arbiter) : Within s (s.setArbiter a) := .of_eq rfl rfl rfl

theorem Within.setFan (s : Part) (f : Fan) : Within s (s.setFan f) := .of_eq rfl rfl rfl

theorem Within.setFlasher (s : Part) (f : Flasher) : Within s (s.setFlasher f) := .of_eq rfl rfl rfl

/-- Records changed in place; the timer of a node in use goes on. -/
theorem Within.onLampNode (s : Part) (n : Nat) (f : LampNode → LampNode) (node : ∀ r, (f r).node = r.node)
    (runs : s.nodeInUse n = true → ∀ r, r.refresh ≠ none → (f r).refresh ≠ none) : Within s (s.onLampNode n f) := by
  refine ⟨rfl, rfl, fun _ => id, fun k h => ?_⟩
  obtain ⟨inUse, r, found, on⟩ := h
  refine ⟨inUse, ?_⟩
  by_cases own : k = n
  · subst own
    refine ⟨f r, ?_, runs inUse r on⟩
    rw [onLampNode_lampNode s k f node, found]
    rfl
  · refine ⟨r, ?_, on⟩
    have other : (s.onLampNode n f).lampNode k = (s.lampNode k).map fun r => if r.node = n then f r else r := by
      unfold Part.lampNode Part.onLampNode Part.setLampNodes
      show (s.channels.lampNodes.map _).find? _ = _
      rw [List.find?_map]
      congr 2
      funext r
      show ((if r.node = n then f r else r).node == k) = (r.node == k)
      split
      · rw [node]
      · rfl
    have named : r.node = k := (lampNode_some found).2
    rw [other, found]
    exact congrArg some (if_neg (by rw [named]; exact own))

/-- Masks shown leave the timers. -/
theorem Within.showMasks (s : Part) : Within s (s.setLampNodes (s.channels.lampNodes.map (·.shown s))) := by
  refine ⟨rfl, rfl, fun _ => id, fun n h => ?_⟩
  obtain ⟨inUse, r, found, on⟩ := h
  refine ⟨inUse, r.shown s, ?_, on⟩
  unfold Part.lampNode at found ⊢
  show (s.channels.lampNodes.map _).find? _ = _
  rw [List.find?_map]
  show (s.channels.lampNodes.find? fun r => r.node == n).map _ = _
  rw [found]
  rfl

/-! ### The operations -/

/-- An own frame queued is a matter of the own transmit queues. -/
theorem originate_frame (n : Nat) (b : OwnBody) (s : Part) : (originate n b s).channels = s.channels ∧
    (originate n b s).power = s.power ∧ (originate n b s).mgmt = s.mgmt := by
  have each : ∀ (e : OwnEntry) (ps : List Port) (t : Part), (ps.foldl (queueOwn e) t).channels = t.channels ∧
      (ps.foldl (queueOwn e) t).power = t.power ∧ (ps.foldl (queueOwn e) t).mgmt = t.mgmt := by
    intro e ps
    induction ps with
    | nil => exact fun _ => ⟨rfl, rfl, rfl⟩
    | cons p ps ih =>
      intro t
      obtain ⟨channels, power, mgmt⟩ := ih (queueOwn e t p)
      have one : (queueOwn e t p).channels = t.channels ∧ (queueOwn e t p).power = t.power ∧
          (queueOwn e t p).mgmt = t.mgmt := by
        unfold queueOwn
        split <;> exact ⟨rfl, rfl, rfl⟩
      obtain ⟨channels', power', mgmt'⟩ := one
      exact ⟨channels.trans channels', power.trans power', mgmt.trans mgmt'⟩
  exact each ..

theorem Within.originate (n : Nat) (b : OwnBody) (s : Part) : Within s (originate n b s) := by
  obtain ⟨channels, power, mgmt⟩ := originate_frame n b s
  exact .of_eq channels power mgmt

theorem Within.commandNode (s : Part) (n : Nat) : Within s (commandNode s n) := by
  unfold Machine.commandNode
  split
  · exact .refl s
  · rename_i r _
    obtain ⟨channels, -, mgmt⟩ := originate_frame n (.lampCommand r.lit r.dim r.duty) s
    refine .ite (.refl s) ((Within.originate ..).trans (.onLampNode _ _ _ (fun _ => rfl) fun inUse r _ => ?_))
    have before : s.nodeInUse n = true := by
      unfold Part.nodeInUse Part.remotesOf Part.chanCfg Part.tables Part.chan at inUse ⊢
      rw [channels, mgmt] at inUse
      exact inUse
    show (if s.nodeInUse n then some 200 else none) ≠ none
    rw [before]
    exact Option.some_ne_none _

theorem Within.settleLights (s : Part) : Within s (settleLights s) := by
  have started : Within s (flashStart s) := .ite (.of_records rfl rfl rfl fun _ => id) (.refl s)
  have dropped : ∀ t, Within t (dropTimers t) := fun t => .of_records rfl rfl rfl fun ch state => by
    rw [dropTimers_chan]
    split <;> exact state
  exact (started.trans (dropped _)).trans ((Within.showMasks _).trans (.foldl .commandNode _ _))

theorem Within.noteFault (ch : Fin 25) (s : Part) : Within s (noteFault ch s) := .ite (.setFlasher ..) (.refl s)

theorem Within.leaveSettling (g : Fin 4) (s : Part) : Within s (leaveSettling g s) := .ite (.setGauge ..) (.refl s)

theorem Within.handGrant (ch : Fin 25) (s : Part) : Within s (handGrant ch s) := by
  have lamp : Within s (Machine.settleLights (s.setChan ch { s.chan ch with state := .on })) :=
    (Within.setChan _ _ _ ChanState.noConfusion).trans (.settleLights _)
  unfold Machine.handGrant
  split
  · exact lamp
  · exact lamp
  · exact .setFan ..
  · exact .leaveSettling ..

theorem Within.giveGrant (ch : Fin 25) (amount : Nat) (s : Part) : Within s (giveGrant ch amount s) :=
  (Within.setArbiter ..).trans (.handGrant ch _)

theorem Within.grantPass (s : Part) : Within s (grantPass s) := by
  have heads : ∀ n t, Within t (grantHeads n t) := by
    intro n
    induction n with
    | zero => exact .refl
    | succ n ih =>
      intro t
      unfold grantHeads
      split
      · exact .refl t
      · exact .ite (((Within.setArbiter ..).trans (.giveGrant ..)).trans (ih _)) (.refl t)
  exact heads ..

theorem Within.passAfter (old s : Part) : Within s (passAfter old s) := .ite (.refl s) (.grantPass s)

theorem Within.makeClaim (ch : Fin 25) (amount : Nat) (s : Part) : Within s (makeClaim ch amount s) :=
  .ite ((Within.setArbiter ..).trans (.grantPass _))
    (.ite (.giveGrant ..) ((Within.setArbiter ..).trans (.grantPass _)))

theorem Within.startRefresh (ch : Fin 25) (s : Part) : Within s (startRefresh ch s) :=
  .ite (.onLampNode _ _ _ (fun _ => rfl) fun _ _ _ => Option.some_ne_none _) (.refl s)

theorem Within.claimChan (ch : Fin 25) (s : Part) : Within s (claimChan ch s) :=
  .ite ((((Within.setChan s ch _ ChanState.noConfusion).trans (.startRefresh ch _)).trans (.noteFault ch _)).trans
    (.settleLights _))
    (((Within.setChan s ch _ ChanState.noConfusion).trans (.startRefresh ch _)).trans (.makeClaim ..))

/-! ### Lamp nodes -/

theorem Within.loseChan (s : Part) (ch : Fin 25) : Within s (loseChan s ch) := by
  cases losable : (s.chan ch).state.losable with
  | false =>
    rw [loseChan_idle s losable]
    exact .refl s
  | true =>
    rw [loseChan_eq s losable]
    exact ((Within.setChan s ch _ ChanState.noConfusion).trans (.setArbiter ..)).trans (.noteFault ch _)

theorem Within.turnNode (s : Part) (n : Nat) (b : Bool) :
    Within s (s.onLampNode n fun r => { r with reachable := b }) :=
  .onLampNode s n _ (fun _ => rfl) fun _ _ => id

theorem Within.loseNode (s : Part) (n : Nat) : Within s (loseNode s n) :=
  ((Within.turnNode s n false).trans (.foldl .loseChan _ _)).trans (.settleLights _)

theorem Within.regainChan (s : Part) (ch : Fin 25) : Within s (regainChan s ch) := .ite (.claimChan ch s) (.refl s)

theorem Within.regainNode (s : Part) (n : Nat) : Within s (regainNode s n) :=
  ((Within.turnNode s n true).trans (.commandNode _ n)).trans (.foldl .regainChan _ _)

theorem Within.followNodes (s : Part) : Within s (followNodes s) :=
  ((Within.foldl .loseNode _ s).trans (.passAfter s _)).trans (.foldl .regainNode _ _)

/-! ### Gauges -/

theorem Within.markLost (g : Fin 4) (b : Bool) (s : Part) : Within s (markLost g b s) := .setGauge ..

theorem Within.parkNow (g : Fin 4) (s : Part) : Within s (parkNow g s) := (Within.setGauge ..).trans (.setArbiter ..)

theorem Within.loseSender (s : Part) (g : Fin 4) : Within s (loseSender s g) := by
  have parked : Within s (Machine.markLost g true (Machine.parkNow g s)) := (Within.parkNow g s).trans (.markLost ..)
  unfold Machine.loseSender
  dsimp only
  split
  iterate 2
    split
    · exact .setGauge ..
    · split
      · exact .setGauge ..
      · exact parked
  · exact parked
  · exact .markLost ..
  · exact .refl s
  · exact .refl s

theorem Within.startTest (s : Part) (g : Fin 4) : Within s (startTest s g) :=
  .ite ((Within.setGauge ..).trans (.makeClaim ..)) (.refl s)

theorem Within.regainSender (s : Part) (g : Fin 4) : Within s (regainSender s g) := by
  unfold Machine.regainSender
  dsimp only
  split
  · exact .setGauge ..
  · exact .ite (.setGauge ..) (.refl s)
  · exact (Within.markLost ..).trans (.startTest _ g)
  · exact .refl s
  · exact .refl s
  · exact .refl s

theorem Within.followSenders (s : Part) : Within s (followSenders s) :=
  ((Within.foldl .loseSender _ s).trans (.passAfter s _)).trans (.foldl .regainSender _ _)

end Sys2Proof.Machine
end

section
/-! The reachability of the lamp nodes computed again (04: R73; entry 30): which channels are lost, which are back. -/

namespace Sys2Proof.Machine

/-! ### The list of the nodes -/

theorem SameReach.loseChan (s : Part) (ch : Fin 25) : SameReach s (loseChan s ch) := by
  cases losable : (s.chan ch).state.losable with
  | false =>
    rw [loseChan_idle s losable]
    exact .refl s
  | true =>
    rw [loseChan_eq s losable]
    exact ((SameReach.setChan ..).trans (.setArbiter ..)).trans (.noteFault ..)

theorem Aware.loseNode (s : Part) (n : Nat) : Aware s (loseNode s n) := by
  have turned : Aware s (s.onLampNode n fun r => { r with reachable := false }) := ⟨id, rfl, fun _ _ => id⟩
  exact turned.trans ((SameReach.foldl .loseChan _ _).trans (.settleLights _)).toAware

theorem SameReach.regainChan (s : Part) (ch : Fin 25) : SameReach s (regainChan s ch) :=
  .ite (.claimChan ch s) (.refl s)

theorem Aware.regainNode (s : Part) (n : Nat) : Aware s (regainNode s n) := by
  have turned : Aware s (s.onLampNode n LampNode.back) := ⟨id, rfl, fun _ _ => id⟩
  exact turned.trans ((SameReach.commandNode _ n).trans (.foldl .regainChan _ _)).toAware

/-- The reachability of some nodes written. -/
def turnKeys (ns : List Nat) (b : Bool) (ks : List (Nat × Bool)) : List (Nat × Bool) :=
  ks.map fun k => if k.1 ∈ ns then (k.1, b) else k

theorem turnNode_reach (s : Part) (n : Nat) (b : Bool) :
    (s.onLampNode n fun r => { r with reachable := b }).reach = turnKeys [n] b s.reach := by
  show (s.channels.lampNodes.map _).map LampNode.key = (s.channels.lampNodes.map LampNode.key).map _
  rw [List.map_map, List.map_map]
  refine List.map_congr_left fun r _ => ?_
  by_cases h : r.node = n <;> simp [LampNode.key, h]

theorem turnKeys_cons (n : Nat) (ns : List Nat) (b : Bool) (ks : List (Nat × Bool)) :
    turnKeys ns b (turnKeys [n] b ks) = turnKeys (n :: ns) b ks := by
  unfold turnKeys
  rw [List.map_map]
  refine List.map_congr_left fun k _ => ?_
  by_cases h : k.1 = n
  · simp [h]
  · by_cases h' : k.1 ∈ ns <;> simp [h, h']

theorem loseNode_reach (s : Part) (n : Nat) : (loseNode s n).reach = turnKeys [n] false s.reach :=
  ((SameReach.foldl .loseChan _ _).trans (.settleLights _)).reach.trans (turnNode_reach s n false)

theorem regainNode_reach (s : Part) (n : Nat) : (regainNode s n).reach = turnKeys [n] true s.reach :=
  ((SameReach.commandNode _ n).trans (.foldl .regainChan _ _)).reach.trans (turnNode_reach s n true)

theorem foldl_reach {f : Part → Nat → Part} {b : Bool} (hf : ∀ s n, (f s n).reach = turnKeys [n] b s.reach)
    (ns : List Nat) (s : Part) : (ns.foldl f s).reach = turnKeys ns b s.reach := by
  induction ns generalizing s with
  | nil => exact (List.map_id' s.reach).symm
  | cons n ns ih => rw [List.foldl_cons, ih, hf, turnKeys_cons]

theorem mem_nodesTurned {s : Part} {n : Nat} {b : Bool} : n ∈ s.nodesTurned b ↔ s.heard n = b ∧ (n, !b) ∈ s.reach := by
  unfold Part.nodesTurned Part.reach LampNode.key
  simp only [List.mem_map, List.mem_filter, Bool.and_eq_true, bne_iff_ne, ne_eq, beq_iff_eq, Prod.mk.injEq]
  constructor
  · rintro ⟨r, ⟨mem, out, heard⟩, rfl⟩
    exact ⟨heard, r, mem, rfl, by cases b <;> simpa using out⟩
  · rintro ⟨heard, r, mem, rfl, out⟩
    exact ⟨r, ⟨mem, by cases b <;> simp [out], heard⟩, rfl⟩

/-- The part once the lost nodes are lost. -/
def nodesLost (s : Part) : Part := passAfter s ((s.nodesTurned false).foldl loseNode s)

theorem followNodes_eq (s : Part) : followNodes s = (s.nodesTurned true).foldl regainNode (nodesLost s) := rfl

theorem nodesLost_still (s : Part) : Undisturbed s (nodesLost s) :=
  (Reaction.passAfter s (.foldl (fun t n => .loseNode t n) _ s)).still

theorem nodesLost_reach (s : Part) : (nodesLost s).reach = turnKeys (s.nodesTurned false) false s.reach :=
  (SameReach.passAfter s (.refl _)).reach.trans (foldl_reach loseNode_reach ..)

/-- After a change of the link every lamp node is reachable that is heard, and no other (04: R73). -/
theorem followNodes_reach (s : Part) : (followNodes s).reach = s.reach.map fun k => (k.1, s.heard k.1) := by
  refine (foldl_reach regainNode_reach ..).trans ?_
  rw [show (passAfter s _).reach = _ from nodesLost_reach s]
  unfold turnKeys
  rw [List.map_map]
  refine List.map_congr_left fun k mem => ?_
  obtain ⟨n, b⟩ := k
  have back : n ∈ s.nodesTurned true ↔ s.heard n = true ∧ (n, false) ∈ s.reach := mem_nodesTurned
  have gone : n ∈ s.nodesTurned false ↔ s.heard n = false ∧ (n, true) ∈ s.reach := mem_nodesTurned
  cases heard : s.heard n <;> cases b <;> simp_all

theorem Aware.followNodes (s : Part) : Aware s (followNodes s) :=
  ((Aware.foldl .loseNode _ s).trans (SameReach.passAfter s (.refl _)).toAware).trans (.foldl .regainNode _ _)

/-- Where the reachability stands right nothing follows. -/
theorem followNodes_still {s : Part} (h : ∀ r ∈ s.channels.lampNodes, r.reachable = s.heard r.node) :
    followNodes s = s := by
  have none : ∀ b, s.nodesTurned b = [] := fun b => List.eq_nil_iff_forall_not_mem.2 fun n turned => by
    obtain ⟨heard, mem⟩ := mem_nodesTurned.1 turned
    obtain ⟨r, hr, key⟩ := List.mem_map.1 mem
    obtain ⟨node, reachable⟩ := Prod.mk.inj key
    rw [h r hr, node, heard] at reachable
    cases b <;> cases reachable
  unfold followNodes
  rw [none, none]
  exact if_pos rfl

/-! ### Channels -/

/-- A change of nodes spares a channel of none of them, and one whose loss changes nothing. -/
theorem Spares.followNodes {s : Part} {ch : Fin 25}
    (lost : (∃ n ∈ s.nodesTurned false, ch ∈ s.remotesOf n) → (s.chan ch).state.losable = false)
    (back : ∀ n ∈ s.nodesTurned true, ch ∉ s.remotesOf n) : Spares ch s (followNodes s) := by
  refine ((Leaves.loseNodes lost).spares.trans (.passAfter s _)).trans (.regainNodes fun n hn => ?_)
  rw [show (Machine.passAfter s _).remotesOf n = _ from remotesOf_still (nodesLost_still s) n]
  exact back n hn

/-- A gauge is no channel of a lamp node. -/
theorem gaugeChan_not_remote (s : Part) (g : Fin 4) (n : Nat) : gaugeChan g ∉ s.remotesOf n := by
  intro mem
  have far : 17 ≤ 13 + g.val := (mem_remotesOf.1 mem).1
  omega

theorem Spares.followNodes_gauge (s : Part) (g : Fin 4) : Spares (gaugeChan g) s (Machine.followNodes s) :=
  .followNodes (fun ⟨_, _, mem⟩ => absurd mem (gaugeChan_not_remote s g _)) fun n _ => gaugeChan_not_remote s g n

/-- A lost channel stays lost where no claim of its own is made. -/
theorem Part.lost.spares {s t : Part} {ch : Fin 25} {c : Chan} (h : s.lost ch c) (k : Spares ch s t) : t.lost ch c := by
  obtain ⟨none, grant, chan⟩ := k.idle h.queued
  exact ⟨none, grant.trans h.grant, chan.trans h.chan⟩

/-- A channel in use whose node is no more heard. -/
theorem followNodes_lost {s : Part} {n : Nat} {ch : Fin 25} (mem : ch ∈ s.remotesOf n) (heard : s.heard n = false)
    (reached : (n, true) ∈ s.reach) (h : (s.chan ch).state.losable = true) :
    (followNodes s).lost ch (s.chan ch) ∧ ((followNodes s).chan ch).overload = none := by
  obtain ⟨lost, timer⟩ := loseNodes_lost (mem_nodesTurned.2 ⟨heard, reached⟩) mem h
  have passed : Spares ch ((s.nodesTurned false).foldl loseNode s) (nodesLost s) := .passAfter s _
  have regained : Spares ch (nodesLost s) (followNodes s) := .regainNodes fun k hk other => by
    rw [remotesOf_still (nodesLost_still s)] at other
    have back := (mem_nodesTurned.1 hk).1
    rw [← remotesOf_node mem other, heard] at back
    cases back
  have after := passed.trans regained
  exact ⟨lost.spares after, after.timer timer⟩

theorem lampNode_of_reach {s : Part} {n : Nat} (h : n ∈ s.reach.map Prod.fst) : ∃ r, s.lampNode n = some r := by
  obtain ⟨k, mem, named⟩ := List.mem_map.1 h
  obtain ⟨r, hr, key⟩ := List.mem_map.1 mem
  have found : (s.channels.lampNodes.find? fun r => r.node == n).isSome = true :=
    List.find?_isSome.2 ⟨r, hr, by rw [← named, ← key]; exact beq_self_eq_true _⟩
  exact Option.isSome_iff_exists.1 found

theorem turnKeys_fst (ns : List Nat) (b : Bool) (ks : List (Nat × Bool)) :
    (turnKeys ns b ks).map Prod.fst = ks.map Prod.fst := by
  unfold turnKeys
  rw [List.map_map]
  refine List.map_congr_left fun k _ => ?_
  show (if k.1 ∈ ns then (k.1, b) else k).1 = k.1
  split <;> rfl

/-- The turn of a node that is heard again: its record is there, and its channels have been spared. -/
theorem followNodes_turn {s : Part} {n : Nat} (heard : s.heard n = true) (unreached : (n, false) ∈ s.reach) :
    ∃ (t : Part) (post : List Nat), followNodes s = post.foldl regainNode (regainNode t n) ∧ Within s t ∧
      Undisturbed s t ∧ (∃ r, t.lampNode n = some r) ∧ ∀ ch ∈ s.remotesOf n, Spares ch s t := by
  obtain ⟨pre, post, split, fresh⟩ := List.eq_append_cons_of_mem (mem_nodesTurned.2 ⟨heard, unreached⟩)
  let t := pre.foldl regainNode (nodesLost s)
  have within : Within s (nodesLost s) := (Within.foldl .loseNode _ s).trans (.passAfter s _)
  have still : Undisturbed s t :=
    Eq.trans (Reaction.foldl (fun u k => .regainNode u k) pre (nodesLost s)).still (nodesLost_still s)
  refine ⟨t, post, ?_, within.trans (.foldl .regainNode pre _), still, lampNode_of_reach ?_, fun ch mem => ?_⟩
  · rw [followNodes_eq, split, List.foldl_append, List.foldl_cons]
  · rw [show t.reach = _ from foldl_reach regainNode_reach pre (nodesLost s), nodesLost_reach, turnKeys_fst,
      turnKeys_fst]
    exact List.mem_map_of_mem unreached
  · have lost : Leaves ch s ((s.nodesTurned false).foldl loseNode s) := .loseNodes fun ⟨k, hk, other⟩ => by
      have away := (mem_nodesTurned.1 hk).1
      rw [← remotesOf_node mem other, heard] at away
      cases away
    refine (lost.spares.trans (.passAfter s _)).trans (.regainNodes fun k hk other => ?_)
    rw [show (passAfter s _).remotesOf k = _ from remotesOf_still (nodesLost_still s) k] at other
    exact absurd (remotesOf_node mem other ▸ hk) fresh

/-- An UNREACHABLE channel whose node is heard again. -/
theorem followNodes_pursues {s : Part} {n : Nat} {ch : Fin 25} (mem : ch ∈ s.remotesOf n) (heard : s.heard n = true)
    (unreached : (n, false) ∈ s.reach) (gone : (s.chan ch).state = .unreachable) (zero : s.grant ch = 0)
    (none : s.queued ch = []) :
    (followNodes s).pursues (s.freshClaim ch) (s.chan ch).demand := by
  obtain ⟨t, post, turn, -, still, ⟨r, record⟩, spared⟩ := followNodes_turn heard unreached
  obtain ⟨none', grant, chan⟩ := (spared ch mem).idle none
  have back := regainNode_pursues record (by rw [remotesOf_still still]; exact mem)
    ((untimed_state chan).trans gone) (grant.trans zero) none'
  rw [freshClaim_still still, untimed_demand chan] at back
  rw [turn]
  exact back.regainNodes post

end Sys2Proof.Machine
end

section
/-! The gauges follow their senders (08: R144): what the loss and the return of its own sender do to a gauge, and that
those of other gauges leave it. -/

namespace Sys2Proof.Machine

/-! ### Other gauges -/

theorem gaugeChan_inj {g k : Fin 4} (h : gaugeChan g = gaugeChan k) : g = k := by
  have same : ChanKind.gauge g = .gauge k := by rw [← kindOf_gaugeChan g, h, kindOf_gaugeChan k]
  cases same
  rfl

section
variable {ch : Fin 25} {g : Fin 4} (s : Part) (other : gaugeChan g ≠ ch)
include other

theorem Leaves.markLost (b : Bool) : Leaves ch s (markLost g b s) := .setGauge s _ other

theorem Leaves.parkNow : Leaves ch s (parkNow g s) := (Leaves.setGauge s _ other).trans (.vacate _ other)

theorem Leaves.loseSender : Leaves ch s (loseSender s g) := by
  have parked : Leaves ch s (Machine.markLost g true (Machine.parkNow g s)) :=
    (Leaves.parkNow s other).trans (.markLost _ other true)
  unfold Machine.loseSender
  dsimp only
  split
  iterate 2
    split
    · exact .setGauge s _ other
    · split
      · exact .setGauge s _ other
      · exact parked
  · exact parked
  · exact .markLost s other true
  · exact .refl ch s
  · exact .refl ch s

theorem Spares.startTest : Spares ch s (startTest s g) :=
  .ite ((Leaves.setGauge s _ other).spares.trans (.makeClaim _ _ other)) (.refl ch s)

theorem Spares.regainSender : Spares ch s (regainSender s g) := by
  unfold Machine.regainSender
  dsimp only
  split
  · exact (Leaves.setGauge s _ other).spares
  · exact .ite (Leaves.setGauge s _ other).spares (.refl ch s)
  · exact (Leaves.markLost s other false).spares.trans (.startTest _ other)
  · exact .refl ch s
  · exact .refl ch s
  · exact .refl ch s

end

theorem Leaves.loseSenders {ch : Fin 25} {gs : List (Fin 4)} (s : Part) (h : ∀ g ∈ gs, gaugeChan g ≠ ch) :
    Leaves ch s (gs.foldl Machine.loseSender s) := .foldl gs (fun g hg t => .loseSender t (h g hg)) s

theorem Spares.regainSenders {ch : Fin 25} {gs : List (Fin 4)} (s : Part) (h : ∀ g ∈ gs, gaugeChan g ≠ ch) :
    Spares ch s (gs.foldl Machine.regainSender s) := .foldl gs (fun g hg t => .regainSender t (h g hg)) s

/-- The gauges whose sender is absent. -/
def Part.gonners (s : Part) : List (Fin 4) := allGauges.filter s.senderGone

/-- The SENDER gauges whose sender is at hand. -/
def Part.served (s : Part) : List (Fin 4) :=
  allGauges.filter fun g => (s.gaugeCfg g).source == .sender && s.senderAtHand g

/-- The part once the gauges have lost their senders. -/
def sendersLost (s : Part) : Part := passAfter s (s.gonners.foldl loseSender s)

theorem followSenders_eq (s : Part) : followSenders s = s.served.foldl regainSender (sendersLost s) := rfl

/-- The gauges are no matter of a channel of a lamp node. -/
theorem Spares.followSenders {ch : Fin 25} (s : Part) (far : 17 ≤ ch.val) : Spares ch s (followSenders s) := by
  have other : ∀ g : Fin 4, gaugeChan g ≠ ch := fun g same => by
    have low : (gaugeChan g).val = 13 + g.val := rfl
    rw [same] at low
    omega
  exact ((Leaves.loseSenders s fun g _ => other g).spares.trans (.passAfter s _)).trans
    (.regainSenders _ fun g _ => other g)

/-! ### The own sender -/

theorem allGauges_nodup : allGauges.Nodup := List.nodup_finRange 4

/-- A gauge in a list without repetition comes once. -/
theorem split_gauges {gs : List (Fin 4)} {g : Fin 4} (nodup : gs.Nodup) (mem : g ∈ gs) :
    ∃ pre post, gs = pre ++ g :: post ∧ (∀ k ∈ pre, gaugeChan k ≠ gaugeChan g) ∧
      ∀ k ∈ post, gaugeChan k ≠ gaugeChan g := by
  obtain ⟨pre, post, split, fresh⟩ := List.eq_append_cons_of_mem mem
  rw [split] at nodup
  have apart : g ∉ post := (List.nodup_cons.1 (List.nodup_append.1 nodup).2.1).1
  exact ⟨pre, post, split, fun k hk same => fresh (gaugeChan_inj same ▸ hk),
    fun k hk same => apart (gaugeChan_inj same ▸ hk)⟩

/-- The turn of a gauge whose sender is absent: nothing of it has changed before, and what follows spares it. -/
theorem followSenders_gone {s : Part} {g : Fin 4} (gone : s.senderGone g = true) :
    ∃ t, Leaves (gaugeChan g) s t ∧ t.mgmt = s.mgmt ∧ Spares (gaugeChan g) (loseSender t g) (followSenders s) := by
  obtain ⟨pre, post, split, before, after⟩ := split_gauges (allGauges_nodup.filter s.senderGone)
    (List.mem_filter.2 ⟨List.mem_finRange g, gone⟩)
  refine ⟨pre.foldl loseSender s, .loseSenders s before, (Within.foldl .loseSender pre s).mgmt, ?_⟩
  have rest : Spares (gaugeChan g) (loseSender (pre.foldl loseSender s) g) (s.gonners.foldl loseSender s) := by
    unfold Part.gonners
    rw [split, List.foldl_append, List.foldl_cons]
    exact (Leaves.loseSenders _ after).spares
  refine (rest.trans (.passAfter s _)).trans (.regainSenders _ fun k hk same => ?_)
  have served := (List.mem_filter.1 hk).2
  rw [gaugeChan_inj same] at served
  unfold Part.senderGone at gone
  simp_all

/-- The turn of a gauge whose sender is at hand. -/
theorem followSenders_back {s : Part} {g : Fin 4} (sender : (s.gaugeCfg g).source = .sender)
    (hand : s.senderAtHand g = true) : ∃ t, Spares (gaugeChan g) s t ∧ Within s t ∧ Undisturbed s t ∧
      Spares (gaugeChan g) (regainSender t g) (followSenders s) := by
  obtain ⟨pre, post, split, before, after⟩ :=
    split_gauges (allGauges_nodup.filter fun g => (s.gaugeCfg g).source == .sender && s.senderAtHand g)
      (List.mem_filter.2 ⟨List.mem_finRange g, by rw [sender, hand]; rfl⟩)
  refine ⟨pre.foldl regainSender (sendersLost s), ?_, ?_, ?_, ?_⟩
  · have lost : Leaves (gaugeChan g) s (s.gonners.foldl loseSender s) := .loseSenders s fun k hk same => by
      have absent := (List.mem_filter.1 hk).2
      rw [gaugeChan_inj same] at absent
      unfold Part.senderGone at absent
      simp_all
    exact (lost.spares.trans (.passAfter s _)).trans (.regainSenders _ before)
  · exact ((Within.foldl .loseSender _ s).trans (.passAfter s _)).trans (.foldl .regainSender _ _)
  · have lost : Reaction s (sendersLost s) := .passAfter s (.foldl (fun t k => .loseSender t k) _ s)
    exact (lost.trans (.foldl (fun t k => .regainSender t k) _ _)).still
  · rw [followSenders_eq]
    unfold Part.served
    rw [split, List.foldl_append, List.foldl_cons]
    exact .regainSenders _ after

/-! ### The loss of the own sender -/

section
variable {s : Part} {g : Fin 4}

/-- A gauge that is driven by samples and holds on: LOST. -/
theorem loseSender_hold (state : (s.gauge g).state = .tracking ∨ (s.gauge g).state = .repeating)
    (lost : (s.gauge g).lost = .hold) : loseSender s g =
      s.setGauge g { (s.gauge g).emptied with state := .lost, lostMark := true } := by
  unfold loseSender
  dsimp only
  rcases state with state | state <;> rw [state, lost]

/-- A driven coil gauge that parks: PARKING. -/
theorem loseSender_coil (state : (s.gauge g).state = .tracking ∨ (s.gauge g).state = .repeating)
    (lost : (s.gauge g).lost = .park) (coil : (s.gaugeCfg g).type = .coil) :
    loseSender s g = s.setGauge g { (s.gauge g).park with lostMark := true } := by
  unfold loseSender
  dsimp only
  rcases state with state | state <;> rw [state, lost, coil]

/-- A driven thermal gauge that parks: PARKED. -/
theorem loseSender_thermal (state : (s.gauge g).state = .tracking ∨ (s.gauge g).state = .repeating)
    (lost : (s.gauge g).lost = .park) (thermal : (s.gaugeCfg g).type = .thermal) :
    loseSender s g = markLost g true (parkNow g s) := by
  unfold loseSender
  dsimp only
  rcases state with state | state <;> rw [state, lost, thermal]

theorem loseSender_settling (state : (s.gauge g).state = .settling) :
    loseSender s g = markLost g true (parkNow g s) := by
  unfold loseSender
  dsimp only
  rw [state]

theorem loseSender_lost (state : (s.gauge g).state = .lost) :
    loseSender s g = markLost g true s := by
  unfold loseSender
  dsimp only
  rw [state]

theorem loseSender_rest (state : (s.gauge g).state = .parked ∨ (s.gauge g).state = .parking) :
    loseSender s g = s := by
  unfold loseSender
  dsimp only
  rcases state with state | state <;> rw [state]

end

/-- A gauge that is parked at once: nothing claimed, nothing held. -/
theorem parked_spec (s : Part) (g : Fin 4) : (markLost g true (parkNow g s)).queued (gaugeChan g) = [] ∧
    (markLost g true (parkNow g s)).grant (gaugeChan g) = 0 ∧
    (markLost g true (parkNow g s)).gauge g = { s.gauge g with
      state := .parked, store := [], last := none, output := 0, drive := s.restOf g, rampLeft := 0
      lostMark := true } := by
  refine ⟨(unclaim_queued ..).trans (if_pos rfl), (vacate_grants ..).trans (if_pos rfl), ?_⟩
  have undriven : (parkNow g s).gauge g = (s.gauge g).undriven .parked (s.restOf g) := setGauge_gauge ..
  have marked : (markLost g true (parkNow g s)).gauge g = { (parkNow g s).gauge g with lostMark := true } :=
    setGauge_gauge ..
  rw [marked, undriven]
  rfl

/-! ### The return of the own sender -/

section
variable {s : Part} {g : Fin 4}

/-- A LOST gauge, and one that parks for its loss, is driven again by REPEATING. -/
theorem regainSender_driven (sender : (s.gaugeCfg g).source = .sender)
    (state : (s.gauge g).state = .lost ∨ (s.gauge g).state = .parking ∧ (s.gauge g).lostMark = true) :
    regainSender s g = s.setGauge g { s.gauge g with
      state := .repeating, store := [], last := none, rampLeft := 0, lostMark := false } := by
  have entered : (s.gauge g).entered (s.gaugeCfg g) =
      { s.gauge g with state := .repeating, store := [], last := none, rampLeft := 0 } := by
    unfold Gauge.entered GaugeCfg.entryState
    rw [sender]
    rfl
  unfold regainSender
  dsimp only
  rcases state with state | ⟨state, mark⟩
  · rw [state, entered]
  · rw [state, entered, mark]
    rfl

theorem regainSender_parking (state : (s.gauge g).state = .parking) (mark : (s.gauge g).lostMark = false) :
    regainSender s g = s := by
  unfold regainSender
  dsimp only
  rw [state, mark]
  rfl

theorem regainSender_parked (state : (s.gauge g).state = .parked) :
    regainSender s g = startTest (markLost g false s) g := by
  unfold regainSender
  dsimp only
  rw [state]

/-- A claim of its own keeps a gauge in its start, whatever comes of it. -/
theorem makeClaim_begun (amount : Nat) (away : (s.gauge g).state ≠ .parked) :
    ((makeClaim (gaugeChan g) amount s).gauge g).state ≠ .parked ∧
      ((makeClaim (gaugeChan g) amount s).gauge g).lostMark = (s.gauge g).lostMark := by
  unfold makeClaim
  split
  · exact (Spares.grantPass _).begun g rfl away
  · split
    · exact (handGrant_own (s.setArbiter (s.arbiter.give (gaugeChan g) amount)) (gaugeChan g)).begun g rfl away
    · exact (Spares.grantPass _).begun g rfl away

/-- A PARKED gauge starts in RUNNING with its sender at hand. -/
theorem startTest_parked (state : (s.gauge g).state = .parked) (mark : (s.gauge g).lostMark = false) :
    ((startTest s g).gauge g).lostMark = false ∧
      (((startTest s g).gauge g).state = .parked ↔ s.mayStart g = false) ∧
      (s.mayStart g = false → startTest s g = s) := by
  unfold startTest
  cases may : s.mayStart g with
  | false =>
    rw [if_neg fun h => Bool.false_ne_true h.2]
    exact ⟨mark, iff_of_true state rfl, fun _ => rfl⟩
  | true =>
    rw [if_pos ⟨state, rfl⟩]
    have settling := setGauge_gauge s g { s.gauge g with state := .settling }
    obtain ⟨away, kept⟩ := makeClaim_begun (s := s.setGauge g { s.gauge g with state := .settling }) (g := g)
      (s.gaugeCfg g).nominal (by rw [settling]; exact GaugeState.noConfusion)
    rw [settling] at kept
    exact ⟨kept.trans mark, iff_of_false away Bool.noConfusion, Bool.noConfusion⟩

end

end Sys2Proof.Machine
end

section
/-! A change of the link and the end of its event (02: R28; 03: R49 to R51; 04: R73; 08: R144; 10: R176). -/

namespace Sys2Proof.Machine

/-! ### Who is heard -/

theorem heard_iff (s : Part) (n : Nat) : s.heard n = true ↔
    ∃ e q, s.node n = some e ∧ e.age < 30 ∧ e.port = some q ∧ (s.port q).state = .up := by
  have present := present_iff s n
  unfold Part.present at present
  unfold Part.heard Part.isUp
  cases found : s.node n with
  | none => simp
  | some e =>
    simp only [found, Option.some.injEq, exists_eq_left'] at present
    cases at_ : e.port <;> simp [present, at_]

theorem available_iff (s : Part) (n : Nat) : s.available n = true ↔ ∃ e, s.node n = some e ∧ e.age < 300 := by
  unfold Part.available NodeEntry.state nodeStateOf
  cases s.node n with
  | none => simp
  | some e =>
    by_cases young : e.age < 30
    · simp [young, show e.age < 300 by omega]
    · by_cases old : e.age < 300 <;> simp [young, old]

/-- The reachability of each lamp node, as the list of it says. -/
theorem reachable_of_reach {s t : Part} {f : Nat → Bool} (h : t.reach = s.reach.map fun k => (k.1, f k.1))
    {r : LampNode} (mem : r ∈ t.channels.lampNodes) : r.reachable = f r.node := by
  have key : r.key ∈ t.reach := List.mem_map_of_mem mem
  rw [h] at key
  obtain ⟨k, -, same⟩ := List.mem_map.1 key
  obtain ⟨node, reachable⟩ := Prod.mk.inj same
  rw [← reachable, node]

/-! ### The inputs -/

theorem followFreshness_input (s : Part) (i : Fin 32) : (followFreshness s).input i =
    if (s.input i).fresh = s.freshNow i then s.input i else (s.input i).withFresh (s.freshNow i) := tab_get ..

theorem withFresh_fresh (x : Input) (b : Bool) : (x.withFresh b).fresh = b := by cases b <;> rfl

theorem freshNow_iff (s : Part) (i : Fin 32) :
    s.freshNow i = true ↔ ∃ m, s.mapEntry i = some m ∧ s.heard m.source = true := by
  unfold Part.freshNow
  cases s.mapEntry i <;> simp

/-- Freshness that stands as it should is left. -/
theorem followFreshness_same {s : Part} (fresh : ∀ i, (s.input i).fresh = s.freshNow i) : followFreshness s = s := by
  have inputs : (followFreshness s).inputs = s.inputs :=
    vec_ext fun i => (followFreshness_input s i).trans (if_pos (fresh i))
  show { s with inputs := (followFreshness s).inputs } = s
  rw [inputs]

/-- A notice of nothing is none. -/
theorem deliverNotice_same (s : Part) : deliverNotice s s = s := by
  refine if_neg fun some => ?_
  obtain ⟨i, -, differs⟩ := List.any_eq_true.1 some
  unfold listed valueChanged at differs
  simp at differs

theorem followLink_same {s : Part} (fresh : ∀ i, (s.input i).fresh = s.freshNow i) :
    followLink s = followRoom (followSenders (followNodes s)) := by
  unfold followLink
  rw [followFreshness_same fresh, deliverNotice_same]

/-- The inputs when the event is over. -/
theorem followLink_input (s : Part) (i : Fin 32) : (finish (followLink s)).input i =
    if (s.input i).fresh = s.freshNow i then s.input i else (s.input i).withFresh (s.freshNow i) := by
  obtain ⟨b, still⟩ := followLink_still s
  have all : (finish (followLink s)).inputs = (followFreshness s).inputs :=
    (finish_still _).inputs.trans still.inputs
  refine Eq.trans ?_ (followFreshness_input s i)
  unfold Part.input
  rw [all]

theorem followLink_fresh (s : Part) (i : Fin 32) : ((finish (followLink s)).input i).fresh = s.freshNow i := by
  rw [followLink_input]
  split
  · assumption
  · exact withFresh_fresh ..

/-! ### The lamp nodes -/

theorem followLink_reach (s : Part) : (followLink s).reach = s.reach.map fun k => (k.1, s.heard k.1) := by
  let t := deliverNotice s (followFreshness s)
  have before : SameReach s t := (SameReach.followFreshness s).trans (.deliverNotice s _)
  have after : SameReach (followNodes t) (followLink s) := (SameReach.followSenders _).trans (.followRoom _)
  have heard : ∀ n, t.heard n = s.heard n := (Reaction.deliverNotice s (followFreshness s)).still.heard
  rw [after.reach, followNodes_reach, before.reach]
  simp only [heard]

theorem Aware.followLink (s : Part) : Aware s (followLink s) :=
  (((SameReach.followFreshness s).trans (.deliverNotice s _)).toAware.trans (.followNodes _)).trans
    ((SameReach.followSenders _).trans (.followRoom _)).toAware

/-! ### The end of the event -/

theorem finish_awake {s : Part} (deferral : s.power.deferral = false) :
    finish s = followIdle (followQuiet (syncConds s)) := by
  have awake : testDeferral (syncConds s) = syncConds s := if_neg fun ⟨waits, _⟩ => by
    rw [(FlagsOnly.syncConds s).power, deferral] at waits
    cases waits
  unfold finish
  rw [awake]

/-- A level condition stands as its cause when an event is over (10: R176). -/
theorem finish_senderLost {s : Part} (on : s.on = true) (deferral : s.power.deferral = false) :
    (finish s).active .senderLost = true ↔ ∃ g, ((finish s).gauge g).lostMark = true := by
  have cause : (Cond.senderLost, allGauges.any fun g => (s.gauge g).lostMark) ∈ levelCauses s := by simp [levelCauses]
  have synced := ((syncConds_flags s on).1 _ cause).1
  have gauge : ∀ g, (finish s).gauge g = s.gauge g := fun g => by
    obtain ⟨-, -, -, -, gauges⟩ := (finish_outputs s (.inl deferral)).1
    unfold Part.gauge
    rw [gauges]
  rw [finish_awake deferral] at gauge ⊢
  show (syncConds s).active .senderLost = true ↔ _
  rw [synced]
  simp only [gauge]
  unfold allGauges
  simp

/-- What leaves the outputs alone leaves every channel. -/
theorem SameOutputs.leaves {s t : Part} (h : SameOutputs s t) (ch : Fin 25) : Leaves ch s t := by
  obtain ⟨channels, arbiter, -, -, gauges⟩ := h
  exact .of_eq s arbiter (by rw [channels]) gauges

/-- Where no input changes its freshness, the outputs after the event are those of the nodes and the senders. -/
theorem followLink_outputs {s : Part} (fresh : ∀ i, (s.input i).fresh = s.freshNow i)
    (deferral : s.power.deferral = false) :
    SameOutputs (followSenders (followNodes s)) (finish (followLink s)) := by
  have followed : FlagsOnly (followSenders (followNodes s)) (followLink s) := by
    rw [followLink_same fresh]
    exact .ite (.setCond ..) (.refl _)
  exact followed.outputs.trans (finish_outputs _ (.inl ((Aware.followLink s).deferral deferral))).1

/-! ### Channels and gauges that lose their node -/

section
variable {s : Part} (fresh : ∀ i, (s.input i).fresh = s.freshNow i) (deferral : s.power.deferral = false)
include fresh deferral

/-- What comes of the senders and the end of the event spares a channel of a lamp node. -/
theorem Spares.afterNodes {ch : Fin 25} (far : 17 ≤ ch.val) :
    Spares ch (Machine.followNodes s) (finish (followLink s)) :=
  (Spares.followSenders _ far).trans ((followLink_outputs fresh deferral).leaves ch).spares

/-- A channel in use whose node is no more heard. -/
theorem followLink_lost {n : Nat} {ch : Fin 25} (mem : ch ∈ s.remotesOf n) (heard : s.heard n = false)
    (reached : (n, true) ∈ s.reach) (losable : (s.chan ch).state.losable = true) :
    let t := finish (followLink s)
    t.lit ch = false ∧ t.grant ch = 0 ∧ t.claimOf ch = none ∧ t.chan ch = (s.chan ch).lost := by
  intro t
  obtain ⟨far, -, -⟩ := mem_remotesOf.1 mem
  obtain ⟨lost, timer⟩ := followNodes_lost mem heard reached losable
  have after : Spares ch (followNodes s) t := .afterNodes fresh deferral far
  obtain ⟨queued, grant, chan⟩ := lost.spares after
  refine ⟨unlit_of_state (kindOf_remote far) ?_, grant, (claimOf_none_iff t ch).2 queued, ?_⟩
  · rw [untimed_state chan]
    exact ChanState.noConfusion
  · have whole : ∀ c : Chan, c.overload = none → c = c.untimed := fun c none => by
      cases c
      cases none
      rfl
    rw [whole _ (after.timer timer), chan]
    rfl

/-- A channel that no loss changes, of a node that is not back. -/
theorem followLink_idle {n : Nat} {ch : Fin 25} (mem : ch ∈ s.remotesOf n) (heard : s.heard n = false)
    (losable : (s.chan ch).state.losable = false) (none : s.claimOf ch = none) :
    ((finish (followLink s)).chan ch).state = (s.chan ch).state := by
  obtain ⟨far, -, -⟩ := mem_remotesOf.1 mem
  have nodes : Spares ch s (followNodes s) := .followNodes (fun _ => losable) fun k hk other => by
    have back := (mem_nodesTurned.1 hk).1
    rw [← remotesOf_node mem other, heard] at back
    cases back
  obtain ⟨-, -, chan⟩ := (nodes.trans (.afterNodes fresh deferral far)).idle ((claimOf_none_iff s ch).1 none)
  exact untimed_state chan

/-- The turn of a gauge whose sender is absent, which stands as before until then and is spared after. -/
theorem followLink_gone {g : Fin 4} (gone : s.senderGone g = true) (same : (followNodes s).gauge g = s.gauge g) :
    ∃ t, t.gauge g = s.gauge g ∧ t.tables = s.tables ∧
      (s.queued (gaugeChan g) = [] → t.queued (gaugeChan g) = [] ∧ t.grant (gaugeChan g) = s.grant (gaugeChan g)) ∧
      Spares (gaugeChan g) (loseSender t g) (finish (followLink s)) := by
  have still : Undisturbed s (followNodes s) := (Reaction.followNodes s).still
  have absent : (followNodes s).senderGone g = true := by
    unfold Part.senderGone Part.senderAtHand Part.available Part.gaugeCfg at gone ⊢
    rw [still.tables, still.node]
    exact gone
  obtain ⟨t, before, mgmt, after⟩ := followSenders_gone absent
  refine ⟨t, (before.gauge g rfl).trans same, ?_, fun none => ?_,
    after.trans ((followLink_outputs fresh deferral).leaves _).spares⟩
  · exact (congrArg Mgmt.tables mgmt).trans still.tables
  · obtain ⟨queued, grant, -⟩ := (Spares.followNodes_gauge s g).idle none
    exact ⟨before.queued.trans queued, before.grant.trans grant⟩

end

end Sys2Proof.Machine
end

section
/-! A step of the node ages (02: R28; obligation O27). -/

namespace Sys2Proof.Machine

/-! ### A gauge whose sender is absent -/

theorem setGauge_self (s : Part) (g : Fin 4) : s.setGauge g (s.gauge g) = s := by
  have gauges : put s.gauges g (s.gauge g) = s.gauges := vec_ext fun k => by
    rw [put_get]
    split
    · rename_i own
      rw [own]
      rfl
    · rfl
  unfold Part.setGauge
  rw [gauges]

/-- Nothing granted, nothing claimed, no samples, at rest with the lost mark set. -/
def Part.parksLost (t : Part) (g : Fin 4) (x : Gauge) (rest : Nat) : Prop :=
  t.grant (gaugeChan g) = 0 ∧ t.claimOf (gaugeChan g) = none ∧
    t.gauge g = { x with state := .parked, store := [], last := none, output := 0, drive := rest
                         rampLeft := 0, lostMark := true }

section
variable {s : Part} {g : Fin 4} (fresh : ∀ i, (s.input i).fresh = s.freshNow i) (deferral : s.power.deferral = false)
  (gone : s.senderGone g = true) (same : (followNodes s).gauge g = s.gauge g)
include fresh deferral gone same

/-- A gauge that parks at once for the loss of its sender. -/
theorem followLink_parks (parks : (s.gauge g).state = .settling ∨
    ((s.gauge g).state = .tracking ∨ (s.gauge g).state = .repeating) ∧ (s.gauge g).lost = .park ∧
      (s.gaugeCfg g).type = .thermal) :
    (finish (followLink s)).parksLost g (s.gauge g) (s.restOf g) := by
  obtain ⟨t, gauge, tables, -, after⟩ := followLink_gone fresh deferral gone same
  have cfg : t.gaugeCfg g = s.gaugeCfg g := by
    unfold Part.gaugeCfg
    rw [tables]
  have rest : t.restOf g = s.restOf g := by
    unfold Part.restOf
    rw [cfg, gauge]
  have parked : loseSender t g = markLost g true (parkNow g t) := by
    rw [← gauge, ← cfg] at parks
    rcases parks with state | ⟨state, lost, thermal⟩
    · exact loseSender_settling state
    · exact loseSender_thermal state lost thermal
  obtain ⟨queued, grant, own⟩ := parked_spec t g
  rw [parked] at after
  obtain ⟨queued', grant', -⟩ := after.idle queued
  refine ⟨grant'.trans grant, (claimOf_none_iff _ _).2 queued', ?_⟩
  rw [after.gauge g rfl (.inl queued), own, gauge, rest]

/-- A gauge that keeps its claim and its grant. -/
theorem followLink_keeps {r : Gauge} (away : r.state ≠ .settling)
    (turn : ∀ t : Part, t.gauge g = s.gauge g → t.gaugeCfg g = s.gaugeCfg g → loseSender t g = t.setGauge g r) :
    (finish (followLink s)).gauge g = r ∧ (s.claimOf (gaugeChan g) = none →
      (finish (followLink s)).grant (gaugeChan g) = s.grant (gaugeChan g)) := by
  obtain ⟨t, gauge, tables, idle, after⟩ := followLink_gone fresh deferral gone same
  rw [turn t gauge (by unfold Part.gaugeCfg; rw [tables])] at after
  have written := setGauge_gauge t g r
  refine ⟨(after.gauge g rfl (.inr (by rw [written]; exact away))).trans written, fun none => ?_⟩
  obtain ⟨queued, grant⟩ := idle ((claimOf_none_iff s _).1 none)
  obtain ⟨-, grant', -⟩ := after.idle queued
  exact grant'.trans grant

/-- A gauge driven by samples that holds on goes LOST. -/
theorem followLink_holds (state : (s.gauge g).state = .tracking ∨ (s.gauge g).state = .repeating)
    (lost : (s.gauge g).lost = .hold) :
    (finish (followLink s)).gauge g = { s.gauge g with state := .lost, store := [], last := none, lostMark := true } ∧
      (s.claimOf (gaugeChan g) = none →
        (finish (followLink s)).grant (gaugeChan g) = s.grant (gaugeChan g)) := by
  refine followLink_keeps fresh deferral gone same GaugeState.noConfusion fun t gauge _ => ?_
  rw [loseSender_hold (by rw [gauge]; exact state) (by rw [gauge]; exact lost), gauge]
  rfl

/-- A driven coil gauge that parks goes to PARKING. -/
theorem followLink_ramps (state : (s.gauge g).state = .tracking ∨ (s.gauge g).state = .repeating)
    (lost : (s.gauge g).lost = .park) (coil : (s.gaugeCfg g).type = .coil) :
    (finish (followLink s)).gauge g = { s.gauge g with
      state := .parking, store := [], last := none, rampStart := (s.gauge g).drive, rampLeft := 15
      lostMark := true } ∧
      (s.claimOf (gaugeChan g) = none →
        (finish (followLink s)).grant (gaugeChan g) = s.grant (gaugeChan g)) := by
  refine followLink_keeps fresh deferral gone same GaugeState.noConfusion fun t gauge cfg => ?_
  rw [loseSender_coil (by rw [gauge]; exact state) (by rw [gauge]; exact lost) (by rw [cfg]; exact coil), gauge]
  rfl

theorem followLink_marks (state : (s.gauge g).state = .lost) :
    (finish (followLink s)).gauge g = { s.gauge g with lostMark := true } := by
  refine (followLink_keeps fresh deferral gone same ?_ fun t gauge _ => ?_).1
  · rw [show ({ s.gauge g with lostMark := true } : Gauge).state = _ from state]
    exact GaugeState.noConfusion
  · rw [loseSender_lost (by rw [gauge]; exact state), markLost, gauge]

theorem followLink_rests (state : (s.gauge g).state = .parked ∨ (s.gauge g).state = .parking) :
    (finish (followLink s)).gauge g = s.gauge g := by
  refine (followLink_keeps fresh deferral gone same ?_ fun t gauge _ => ?_).1
  · rcases state with state | state <;> rw [state] <;> exact GaugeState.noConfusion
  · rw [loseSender_rest (by rw [gauge]; exact state), ← gauge, setGauge_self]

end

/-! ### The step -/

theorem exec_nodeAgeStep_on {s : State} (on : s.part.on = true) :
    exec .nodeAgeStep s = .next { s with part := finish (followLink (ageNodes s.part)) } :=
  congrArg s.nextPart (if_pos on)

theorem findNode_aged (nodes : List NodeEntry) (n : Nat) :
    findNode (nodes.map (·.aged)) n = (findNode nodes n).map (·.aged) := by
  unfold findNode
  rw [List.find?_map]
  rfl

theorem ageNodes_node (u : Part) (n : Nat) : (ageNodes u).node n = (u.node n).map (·.aged) := findNode_aged ..

theorem ageNodes_heard (u : Part) (n : Nat) : (ageNodes u).heard n = true ↔
    ∃ e q, u.node n = some e ∧ bump16 e.age < 30 ∧ e.port = some q ∧ (u.port q).state = .up := by
  rw [heard_iff, ageNodes_node]
  constructor
  · rintro ⟨e, q, found, rest⟩
    obtain ⟨x, mem, rfl⟩ := Option.map_eq_some_iff.1 found
    exact ⟨x, q, mem, rest⟩
  · rintro ⟨x, q, mem, rest⟩
    exact ⟨x.aged, q, by rw [mem]; rfl, rest⟩

theorem ageNodes_available (u : Part) (n : Nat) : (ageNodes u).available n = true ↔
    ∃ e, u.node n = some e ∧ bump16 e.age < 300 := by
  rw [available_iff, ageNodes_node]
  simp only [Option.map_eq_some_iff, ↓existsAndEq, and_true]
  rfl

/-- What the end of the event leaves of the step, but for the inputs. -/
theorem ageStep_still (u : Part) : ∃ b, Undisturbed
    ((followFreshness (ageNodes u)).markActive .nodeTableFull b) (finish (followLink (ageNodes u))) := by
  obtain ⟨b, still⟩ := followLink_still (ageNodes u)
  exact ⟨b, Eq.trans (finish_still _) still⟩

/-- Freshness that the step does not change stands as it should before. -/
theorem ageNodes_fresh {u : Part} (h : ∀ i, ((finish (followLink (ageNodes u))).input i).fresh = (u.input i).fresh)
    (i : Fin 32) : ((ageNodes u).input i).fresh = (ageNodes u).freshNow i := (h i).symm.trans (followLink_fresh _ i)

theorem ageNodes_senderGone {u : Part} {g : Fin 4} (sender : (u.gaugeCfg g).source = .sender)
    (absent : ¬ ∃ e, u.node (u.gaugeCfg g).node = some e ∧ bump16 e.age < 300) :
    (ageNodes u).senderGone g = true := by
  have lost : (ageNodes u).available ((ageNodes u).gaugeCfg g).node = false :=
    Bool.eq_false_iff.2 ((ageNodes_available ..).not.2 absent)
  have source : ((ageNodes u).gaugeCfg g).source = .sender := sender
  unfold Part.senderGone Part.senderAtHand
  rw [source, lost]
  rfl

theorem ageStep_reachable (u : Part) {r : LampNode} (mem : r ∈ (finish (followLink (ageNodes u))).channels.lampNodes) :
    r.reachable = (ageNodes u).heard r.node :=
  reachable_of_reach ((SameReach.finish _).reach.trans (followLink_reach _)) mem

/-- Settles O27, by what the nodes and then the senders of the aged part come to. -/
theorem nodeAgeStepAges : Obligations.NodeAgeStepAges := by
  intro s on u heard
  have hears : ∀ n, (ageNodes u).heard n = true ↔ heard n := ageNodes_heard u
  have silent : ∀ n, ¬ heard n → (ageNodes u).heard n = false := fun n not => by
    rw [← hears] at not
    exact Bool.eq_false_iff.2 not
  obtain ⟨b, still⟩ := ageStep_still u
  have on' : (followLink (ageNodes u)).on = true := by
    obtain ⟨b, linked⟩ := followLink_still (ageNodes u)
    exact linked.on.trans on
  refine ⟨finish (followLink (ageNodes u)), exec_nodeAgeStep_on on, still.relay.1, fun i => ?_, fun i same => ?_,
    fun i was now => ?_, fun i was now => ?_, fun r mem => ?_, fun deferral => ?_, fun deferral unchanged => ⟨?_, ?_⟩,
    still.relay.2.1, fun q => ⟨still.rxQ q, still.relayQ q⟩, still.tables, still.mgmt.2.2.2.2.2.1⟩
  · rw [followLink_fresh, freshNow_iff]
    simp only [hears]
    rfl
  · rw [followLink_fresh] at same
    exact (followLink_input ..).trans (if_pos same)
  · rw [followLink_fresh] at now
    have turned := followLink_input (ageNodes u) i
    rw [if_neg (by rw [now]; exact fun same => Bool.noConfusion (was.symm.trans same)), now] at turned
    exact turned
  · rw [followLink_fresh] at now
    have turned := followLink_input (ageNodes u) i
    rw [if_neg (by rw [now]; exact fun same => Bool.noConfusion (was.symm.trans same)), now] at turned
    exact turned
  · rw [ageStep_reachable u mem, hears]
  · exact finish_senderLost on' ((Aware.followLink (ageNodes u)).deferral deferral)
  · intro ch far used unheard ⟨r, mem, node, reached⟩ c
    have fresh := ageNodes_fresh unchanged
    have own : ch ∈ (ageNodes u).remotesOf (u.chanCfg ch).node := mem_remotesOf.2 ⟨far, used, rfl⟩
    have known : ((u.chanCfg ch).node, true) ∈ (ageNodes u).reach :=
      List.mem_map.2 ⟨r, mem, by rw [LampNode.key, node, reached]⟩
    refine ⟨fun state => ?_, fun state none => ?_⟩
    · refine followLink_lost fresh deferral own (silent _ unheard) known ?_
      rcases state with state | state | state <;> exact (congrArg ChanState.losable state).trans rfl
    · refine followLink_idle fresh deferral own (silent _ unheard) ?_ none
      rcases state with state | state <;> exact (congrArg ChanState.losable state).trans rfl
  · intro g sender absent x parks
    have fresh := ageNodes_fresh unchanged
    have gone := ageNodes_senderGone sender absent
    have spared := Spares.followNodes_gauge (ageNodes u) g
    have stays : x.state ≠ .settling → (followNodes (ageNodes u)).gauge g = (ageNodes u).gauge g := fun away =>
      spared.gauge g rfl (.inr away)
    refine ⟨fun driven => ?_, fun settling right => ?_, fun state => ?_, fun state => ?_⟩
    · have same := stays (by rcases driven with state | state <;> rw [state] <;> exact GaugeState.noConfusion)
      refine ⟨fun hold => (followLink_holds fresh deferral gone same driven hold).1,
        fun park coil => (followLink_ramps fresh deferral gone same driven park coil).1, fun kind => ?_,
        fun park thermal => followLink_parks fresh deferral gone same (.inr ⟨driven, park, thermal⟩)⟩
      cases lost : x.lost with
      | hold => exact (followLink_holds fresh deferral gone same driven lost).2
      | park =>
        have coil := kind.resolve_left (by rw [lost]; exact GaugeBehaviour.noConfusion)
        exact (followLink_ramps fresh deferral gone same driven lost coil).2
    · refine followLink_parks fresh deferral gone ?_ (.inl settling)
      rcases right with none | right
      · exact spared.gauge g rfl (.inl ((claimOf_none_iff u _).1 none))
      · have reached : ∀ r ∈ (ageNodes u).channels.lampNodes, r.reachable = (ageNodes u).heard r.node := fun r mem =>
          Bool.eq_iff_iff.2 ((right r mem).trans (hears _).symm)
        rw [followNodes_still reached]
    · exact followLink_marks fresh deferral gone (stays (by rw [state]; exact GaugeState.noConfusion)) state
    · exact followLink_rests fresh deferral gone
        (stays (by rcases state with state | state <;> rw [state] <;> exact GaugeState.noConfusion)) state

end Sys2Proof.Machine
end

section
/-! What learning a source makes of the node table (02: R25 to R27, R29, R31). -/

namespace Sys2Proof.Machine

/-! ### Room -/

theorem state_lost_iff (e : NodeEntry) : (e.state == .lost) = true ↔ 300 ≤ e.age := by
  unfold NodeEntry.state nodeStateOf
  by_cases young : e.age < 30
  · simp [young]
    omega
  · by_cases old : e.age < 300 <;> simp [young, old]
    omega

theorem mem_unpinnedLost {ns : List NodeEntry} {e : NodeEntry} :
    e ∈ ns.filter (fun e => !e.pinned && e.state == .lost) ↔ e ∈ ns ∧ e.pinned = false ∧ 300 ≤ e.age := by
  rw [List.mem_filter, Bool.and_eq_true, state_lost_iff]
  simp

theorem replaceable_none {ns : List NodeEntry} (h : replaceable ns = none) :
    ¬ ∃ e ∈ ns, e.pinned = false ∧ 300 ≤ e.age := by
  rintro ⟨e, mem, lost⟩
  have kept : e ∈ ns.filter fun e => !e.pinned && e.state == .lost := mem_unpinnedLost.2 ⟨mem, lost⟩
  rw [oldest_none h] at kept
  cases kept

/-- The entry replaced: the oldest of the unpinned LOST ones, of the lowest number among equals. -/
theorem replaceable_some {ns : List NodeEntry} {x : NodeEntry} (h : replaceable ns = some x) :
    (x ∈ ns ∧ x.pinned = false ∧ 300 ≤ x.age) ∧ (rising (ns.map (·.node)) → ∀ y ∈ ns, y.pinned = false →
      300 ≤ y.age → y.age < x.age ∨ y.age = x.age ∧ x.node ≤ y.node) := by
  obtain ⟨mem, most⟩ := oldest_some h
  refine ⟨mem_unpinnedLost.1 mem, fun order y hy unpinned lost => ?_⟩
  exact most (List.Pairwise.sublist (List.filter_sublist.map _) order) y (mem_unpinnedLost.2 ⟨hy, unpinned, lost⟩)

theorem hasRoom_iff (ns : List NodeEntry) :
    hasRoom ns = true ↔ ns.length < 24 ∨ ∃ e ∈ ns, e.pinned = false ∧ 300 ≤ e.age := by
  unfold hasRoom
  cases found : replaceable ns with
  | none => simp [replaceable_none found]
  | some x =>
    obtain ⟨⟨mem, unpinned, lost⟩, -⟩ := replaceable_some found
    simp only [Option.isSome_some, Bool.or_true, true_iff]
    exact .inr ⟨x, mem, unpinned, lost⟩

/-! ### The entry -/

/-- What a change of port does not touch, and where it leads. -/
theorem heardOn_rest (e : NodeEntry) (p : Port) : (e.heardOn p).port = some p ∧ (e.heardOn p).pinned = e.pinned ∧
    (e.heardOn p).expected = e.expected ∧ (e.heardOn p).role = e.role := by
  unfold NodeEntry.heardOn NodeEntry.moved
  split
  · exact ⟨rfl, rfl, rfl, rfl⟩
  · split
    · rename_i at_ same
      exact ⟨at_.trans (congrArg some same), rfl, rfl, rfl⟩
    · split
      · exact ⟨rfl, rfl, rfl, rfl⟩
      · split <;> exact ⟨rfl, rfl, rfl, rfl⟩

theorem heardOn_stays {e : NodeEntry} {p : Port} (h : e.port = none ∨ e.port = some p) :
    (e.heardOn p).moves = e.moves ∧ (e.heardOn p).duplicate = e.duplicate ∧ (e.heardOn p).window = e.window ∧
      (e.heardOn p).quietTime = e.quietTime := by
  unfold NodeEntry.heardOn
  rcases h with h | h <;> rw [h]
  · exact ⟨rfl, rfl, rfl, rfl⟩
  · dsimp only
    rw [if_pos rfl]
    exact ⟨rfl, rfl, rfl, rfl⟩

theorem heardOn_moved {e : NodeEntry} {p : Port} (h : e.port = some p.other) : e.heardOn p = e.moved p := by
  unfold NodeEntry.heardOn
  rw [h]
  exact if_neg (by cases p <;> exact Port.noConfusion)

theorem moved_duplicate {e : NodeEntry} (p : Port) (h : e.duplicate = true) :
    e.moved p = { e with port := some p, moves := 3, quietTime := 0 } := if_pos h

theorem moved_first {e : NodeEntry} (p : Port) (h : e.duplicate = false) (first : e.moves = 0 ∨ 10000 ≤ e.window) :
    e.moved p = { e with port := some p, moves := 1, window := 0, quietTime := 0 } := by
  unfold NodeEntry.moved
  rw [if_neg (by rw [h]; exact Bool.noConfusion), if_pos first]

theorem moved_again {e : NodeEntry} (p : Port) (h : e.duplicate = false) (again : e.moves ≠ 0)
    (soon : e.window < 10000) :
    e.moved p = { e with port := some p, moves := min 3 (e.moves + 1), quietTime := 0
                         duplicate := decide (3 ≤ e.moves + 1) } := by
  unfold NodeEntry.moved
  rw [if_neg (by rw [h]; exact Bool.noConfusion), if_neg (by omega)]

theorem moved_quietTime (e : NodeEntry) (p : Port) : (e.moved p).quietTime = 0 := by
  unfold NodeEntry.moved
  split
  · rfl
  · split <;> rfl

/-! ### The table -/

section
variable {s : Part} {n : Nat} (kind : Nat) (p : Port)

theorem learn_own (own : n = s.mgmt.node) :
    learn n kind p s = { s with relay := { s.relay with ownTimer := some 10000 } } := if_pos own

variable (other : n ≠ s.mgmt.node)
include other

/-- An entry held is rewritten. -/
theorem learn_known {e : NodeEntry} (known : s.node n = some e) :
    learn n kind p s = s.setNodes (putNode (e.learned kind p) s.relay.nodes) := by
  unfold learn
  rw [if_neg other, known]

theorem learn_known_node {e : NodeEntry} (known : s.node n = some e) (k : Nat) :
    (learn n kind p s).node k = if n = k then some (e.learned kind p) else s.node k := by
  rw [learn_known kind p other known]
  have own : (e.learned kind p).node = n := (learned_node ..).trans (findNode_some known).2
  refine (findNode_putNode ..).trans ?_
  rw [own]
  rfl

/-- A new node with room for it. -/
theorem learn_new (new : s.node n = none) (room : hasRoom s.relay.nodes = true) : learn n kind p s =
    s.setNodes (addNode (NodeEntry.fresh n kind p) (replaceable s.relay.nodes) s.relay.nodes) := by
  unfold learn
  rw [if_neg other, new]
  exact if_pos room

theorem learn_new_node (new : s.node n = none) (room : hasRoom s.relay.nodes = true) :
    (learn n kind p s).node n = some (NodeEntry.fresh n kind p) := by
  rw [learn_new kind p other new room]
  show findNode (addNode _ _ _) n = _
  unfold addNode
  split
  · exact (findNode_putNode ..).trans (if_pos rfl)
  · rename_i full
    split
    · rename_i gone
      have isNone := (hasRoom_iff _).1 room
      exact absurd (isNone.resolve_left full) (replaceable_none gone)
    · exact (findNode_putNode ..).trans (if_pos rfl)

theorem learn_free_node (new : s.node n = none) (free : s.relay.nodes.length < 24) {k : Nat} (hk : k ≠ n) :
    (learn n kind p s).node k = s.node k := by
  rw [learn_new kind p other new ((hasRoom_iff _).2 (.inl free))]
  show findNode (addNode _ _ _) k = _
  unfold addNode
  rw [if_pos free]
  exact (findNode_putNode ..).trans (if_neg hk.symm)

/-- A new node in a full table takes the place of another. -/
theorem learn_replaced (new : s.node n = none) (full : ¬ s.relay.nodes.length < 24) {x : NodeEntry}
    (goner : replaceable s.relay.nodes = some x) {k : Nat} (hk : k ≠ n) :
    (learn n kind p s).node k = if x.node = k then none else s.node k := by
  have room : hasRoom s.relay.nodes = true := by
    unfold hasRoom
    rw [goner]
    exact Bool.or_true _
  rw [learn_new kind p other new room]
  show findNode (addNode _ _ _) k = _
  unfold addNode
  rw [if_neg full, goner]
  exact ((findNode_putNode ..).trans (if_neg hk.symm)).trans (findNode_dropNode ..)

theorem learn_crowded (new : s.node n = none) (room : hasRoom s.relay.nodes = false) :
    learn n kind p s = setCond .nodeTableFull true s := by
  unfold learn
  rw [if_neg other, new]
  exact if_neg (by rw [room]; exact Bool.noConfusion)

end

/-! ### The rest of the event -/

/-- Node table and own-number timer stay, and NODE_TABLE_FULL too while there is no room. -/
structure TableStays (s t : Part) : Prop where
  nodes : t.relay.nodes = s.relay.nodes
  ownTimer : t.relay.ownTimer = s.relay.ownTimer
  full : hasRoom s.relay.nodes = false → s.active .nodeTableFull = true → t.active .nodeTableFull = true

theorem TableStays.trans {s t u : Part} (h : TableStays s t) (k : TableStays t u) : TableStays s u where
  nodes := k.nodes.trans h.nodes
  ownTimer := k.ownTimer.trans h.ownTimer
  full crowded := k.full (h.nodes ▸ crowded) ∘ h.full crowded

theorem TableStays.of_undisturbed {s t : Part} (h : Undisturbed s t) : TableStays s t where
  nodes := h.relay.1
  ownTimer := h.relay.2.1
  full _ on := (h.active _ rfl).trans on

theorem TableStays.refl (s : Part) : TableStays s s := .of_undisturbed rfl

theorem TableStays.followLink (s : Part) : TableStays s (followLink s) := by
  obtain ⟨t, reaction, linked⟩ := followLink_reaction s
  have before : TableStays (followFreshness s) t := .of_undisturbed reaction.still
  have fresh : TableStays s (followFreshness s) := ⟨rfl, rfl, fun _ => id⟩
  have room : TableStays t (followRoom t) := by
    unfold Machine.followRoom
    split
    · rename_i room
      have cleared : TableStays t (t.markActive .nodeTableFull false) :=
        ⟨rfl, rfl, fun crowded => Bool.noConfusion (room.symm.trans crowded)⟩
      exact cleared.trans (.of_undisturbed (setCond_still ..))
    · exact .refl t
  rw [linked]
  exact (fresh.trans before).trans room

theorem TableStays.writePort (p : Port) (r : PortRec) (s : Part) : TableStays s (writePort p r s) := by
  have placed : TableStays s (placePort p r s) := by
    unfold Machine.placePort abortTx
    dsimp only
    split
    · split
      · split <;> exact ⟨rfl, rfl, fun _ => id⟩
      · exact ⟨rfl, rfl, fun _ => id⟩
      · exact ⟨rfl, rfl, fun _ => id⟩
    · exact ⟨rfl, rfl, fun _ => id⟩
  exact placed.trans (.of_undisturbed (writePort_reaction p r s).2.still)

theorem TableStays.takeReframe (p : Port) (s : Part) : TableStays s (takeReframe p s) := by
  unfold Machine.takeReframe
  split
  · exact (TableStays.writePort p _ s).trans (.followLink _)
  · exact .refl s

end Sys2Proof.Machine
end

section
/-! The end of a good frame up to the learning of its source (01: R6 to R10; 02: R26 to R33). -/

namespace Sys2Proof.Machine

/-! ### Before the learning -/

/-- What the port and the copies of a frame do not touch: node table and own-number timer, outputs, inputs, the power
manager, the working node number and the tables. -/
structure Untaught (s t : Part) : Prop where
  nodes : t.relay.nodes = s.relay.nodes
  ownTimer : t.relay.ownTimer = s.relay.ownTimer
  outputs : SameOutputs s t
  inputs : t.inputs = s.inputs
  power : t.power = s.power
  own : t.mgmt.node = s.mgmt.node
  tables : t.tables = s.tables

theorem Untaught.trans {s t u : Part} (h : Untaught s t) (k : Untaught t u) : Untaught s u where
  nodes := k.nodes.trans h.nodes
  ownTimer := k.ownTimer.trans h.ownTimer
  outputs := h.outputs.trans k.outputs
  inputs := k.inputs.trans h.inputs
  power := k.power.trans h.power
  own := k.own.trans h.own
  tables := k.tables.trans h.tables

theorem Untaught.refl (s : Part) : Untaught s s := ⟨rfl, rfl, .refl s, rfl, rfl, rfl, rfl⟩

theorem Untaught.setPort (p : Port) (s : Part) (r : PortRec) : Untaught s (s.setPort p r) :=
  ⟨rfl, rfl, .refl s, rfl, rfl, rfl, rfl⟩

theorem Untaught.hear (p : Port) (s : Part) : Untaught s (hear p s) := (Untaught.setPort p s _).trans (.setPort ..)

theorem Untaught.placePort (p : Port) (r : PortRec) (s : Part) : Untaught s (placePort p r s) := by
  have aborted : ∀ t, Untaught t (abortTx p t) := fun t => by
    unfold abortTx
    split
    · split
      · exact (Untaught.setPort ..).trans (.setPort ..)
      · exact .setPort ..
    · exact .refl t
    · exact .refl t
  unfold Machine.placePort
  dsimp only
  split
  · exact (Untaught.setPort ..).trans (aborted _)
  · exact .setPort ..

theorem Untaught.writePort (p : Port) (r : PortRec) (s : Part) : Untaught s (writePort p r s) := by
  obtain ⟨flags, reaction⟩ := writePort_reaction p r s
  have still := reaction.still
  exact (Untaught.placePort p r s).trans
    ⟨still.relay.1, still.relay.2.1, flags.outputs, still.inputs, flags.power, still.mgmt.2.2.2.2.2.1, still.tables⟩

theorem Untaught.settleCopies (p : Port) (x : Rx) (s : Part) : Untaught s (settleCopies p x s) := by
  have take : Untaught s (settleTake p x s) := by
    cases h : x.take with
    | none =>
      rw [settleTake_none s h]
      exact .refl s
    | reserved =>
      rw [settleTake_reserved s h]
      exact ⟨rfl, rfl, .refl s, rfl, rfl, rfl, rfl⟩
    | noPlace =>
      rw [settleTake_noPlace s h]
      exact ⟨rfl, rfl, .refl s, rfl, rfl, rfl, rfl⟩
  have relay : ∀ t, Untaught t (settleRelay p x t) := fun t => by
    cases h : x.relay with
    | none =>
      rw [settleRelay_none t h]
      exact .refl t
    | reserved =>
      rw [settleRelay_reserved t h]
      exact ⟨rfl, rfl, .refl t, rfl, rfl, rfl, rfl⟩
    | cutThrough =>
      rw [settleRelay_cutThrough t h]
      unfold onCut
      split
      · exact .setPort ..
      · exact .refl t
      · exact .refl t
  exact take.trans (relay _)

/-- The part when the source of a good frame is learned. -/
def beforeLearning (p : Port) (s : Part) : Part :=
  settleCopies p (s.port p).rx (writeGood p s)

theorem beforeLearning_untaught (p : Port) (s : Part) : Untaught s (beforeLearning p s) :=
  ((Untaught.setPort p s _).trans (.writePort p _ _)).trans (.settleCopies p _ _)

/-- The port once its good frame has been judged and written. -/
theorem beforeLearning_port (p : Port) (s : Part) :
    ((beforeLearning p s).port p).reframe = (s.port p).reframe := by
  have copies : ((beforeLearning p s).port p).reframe = ((writeGood p s).port p).reframe := by
    obtain ⟨-, -, -, near, -⟩ := settleRelay_frame p (s.port p).rx (settleTake p (s.port p).rx (writeGood p s))
    refine (congrArg PortRec.reframe near).trans ?_
    cases h : (s.port p).rx.take with
    | none => rw [settleTake_none _ h]
    | reserved => rw [settleTake_reserved _ h]; rfl
    | noPlace =>
      rw [settleTake_noPlace _ h]
      have counted := congrArg PortRec.reframe
        (count_port (writeGood p s) p fun c => { c with refused := bump16 c.refused })
      exact counted
  have written : ((writeGood p s).port p).core = (s.port p).cleared.afterGood.core := writePort_core ..
  rw [copies, core_reframe written]
  exact (afterGood_rest (s.port p).cleared).reframe

end Sys2Proof.Machine
end

section
/-! A lamp node heard again is commanded and refreshed (02: R40, R41; 04: R73, R75, R76). -/

namespace Sys2Proof.Machine

/-! ### The command -/

/-- A LAMP_COMMAND to the node waits on the port, or the queue has no place. -/
def Part.commandsOrFull (s : Part) (p : Port) (n : Nat) : Prop := s.commands p n ∨ 8 ≤ (s.ownQ p).length

theorem Part.commandsOrFull.mono {s t : Part} {p : Port} {n : Nat} (h : s.commandsOrFull p n) (aware : Aware s t)
    (longer : (s.ownQ p).length ≤ (t.ownQ p).length) : t.commandsOrFull p n :=
  h.imp (aware.commands p n) fun full => Nat.le_trans full longer

/-- An entry is in the queue it enters, or the queue is full. -/
theorem mem_enqueue {e : OwnEntry} (q : List OwnEntry) : e ∈ enqueue e q ∨ 8 ≤ (enqueue e q).length := by
  unfold enqueue
  split
  · rename_i absorbs
    obtain ⟨x, mem, takes⟩ := List.any_eq_true.1 (Bool.and_eq_true_iff.1 absorbs).2
    exact .inl (List.mem_map.2 ⟨x, mem, if_pos takes⟩)
  · split
    · exact .inl (List.mem_append_right _ (List.mem_singleton_self e))
    · rename_i full
      exact .inr (Nat.le_of_not_lt full)

section
variable {s : Part} {p : Port} {n : Nat} (up : (s.port p).state ≠ .down)
include up

theorem queueOwn_commands (lit dim : Byte) (duty : Nat) :
    (queueOwn { dest := n, source := s.mgmt.node, body := .lampCommand lit dim duty } s p).commandsOrFull p n := by
  unfold queueOwn
  rw [if_neg up]
  unfold Part.commandsOrFull
  rw [setOwnQ_ownQ]
  refine (mem_enqueue _).imp_left fun mem => ⟨lit, dim, duty, ?_⟩
  rw [setOwnQ_ownQ]
  exact mem

/-- What is queued elsewhere takes neither the command nor a place. -/
theorem queueEach_commands {e : OwnEntry} (own : e.source = s.mgmt.node) {ps : List Port} (target : p ∈ ps)
    (queued : ∀ t : Part, (t.port p).state ≠ .down → e.source = t.mgmt.node → (queueOwn e t p).commandsOrFull p n) :
    (ps.foldl (queueOwn e) s).commandsOrFull p n := by
  induction ps generalizing s with
  | nil => cases target
  | cons q qs ih =>
    have first : Reaction s (queueOwn e s q) := .queueOwn e s q
    have aware := SameReach.queueOwn e s q own
    by_cases here : p = q
    · subst here
      have rest : Reaction (queueOwn e s p) (qs.foldl (queueOwn e) (queueOwn e s p)) :=
        .foldl (fun t r => .queueOwn e t r) qs _
      have later := SameReach.queueEach e qs (queueOwn e s p) (own.trans aware.node.symm)
      exact (queued s up own).mono later.toAware (rest.ownQ p).1
    · refine ih ?_ (own.trans aware.node.symm) ((List.mem_cons.1 target).resolve_left here)
      rw [(first.still.portRest p).1]
      exact up

theorem originate_commands (target : p ∈ s.targets n) (lit dim : Byte) (duty : Nat) :
    (originate n (.lampCommand lit dim duty) s).commandsOrFull p n :=
  queueEach_commands up rfl target fun t up own => by
    rw [show s.mgmt.node = t.mgmt.node from own]
    exact queueOwn_commands up lit dim duty

theorem commandNode_commands (target : p ∈ s.targets n) {r : LampNode} (record : s.lampNode n = some r)
    (free : s.mode ≠ .held) : (commandNode s n).commandsOrFull p n := by
  unfold commandNode
  rw [record]
  dsimp only
  rw [if_neg free]
  have timed := SameReach.onLampNode (originate n (.lampCommand r.lit r.dim r.duty) s) n
    (fun r => { r with refresh := if s.nodeInUse n then some 200 else none }) fun _ => rfl
  exact (originate_commands up target r.lit r.dim r.duty).mono timed.toAware (Nat.le_refl _)

/-- A node that is back is commanded. -/
theorem regainNode_commands (target : p ∈ s.targets n) {r : LampNode} (record : s.lampNode n = some r)
    (free : s.mode ≠ .held) : (regainNode s n).commandsOrFull p n := by
  have greeted : (greetNode n s).commandsOrFull p n := by
    refine commandNode_commands up target (r := r.back) ?_ free
    rw [onLampNode_lampNode s n LampNode.back fun _ => rfl, record]
    rfl
  have rest : Reaction (greetNode n s) (regainNode s n) := .foldl (fun t ch => .regainChan t ch) _ _
  have aware : SameReach (greetNode n s) (regainNode s n) := .foldl .regainChan _ _
  exact greeted.mono aware.toAware (rest.ownQ p).1

/-- A node that is heard again is commanded. -/
theorem followNodes_commands (target : p ∈ s.targets n) (free : s.mode ≠ .held) (heard : s.heard n = true)
    (unreached : (n, false) ∈ s.reach) : (followNodes s).commandsOrFull p n := by
  obtain ⟨t, post, turn, within, still, ⟨r, record⟩, -⟩ := followNodes_turn heard unreached
  have targets : t.targets n = s.targets n := by
    unfold Part.targets Part.knownPort
    rw [still.node]
  have commanded : (regainNode t n).commandsOrFull p n := by
    refine regainNode_commands ?_ (by rw [targets]; exact target) record ?_
    · rw [(still.portRest p).1]
      exact up
    · unfold Part.mode
      rw [within.power]
      exact free
  have rest : Reaction (regainNode t n) (post.foldl regainNode (regainNode t n)) :=
    .foldl (fun t k => .regainNode t k) post _
  rw [turn]
  exact commanded.mono (.foldl .regainNode post _) (rest.ownQ p).1

end

theorem setCond_ownQ (c : Cond) (b : Bool) (s : Part) (p : Port) :
    (s.ownQ p).length ≤ ((setCond c b s).ownQ p).length := by
  unfold setCond
  split
  · exact Nat.le_refl _
  · dsimp only
    split
    · exact Nat.le_refl _
    · refine Nat.le_trans ?_ ((Reaction.oweNotice c _).ownQ p).1
      exact Nat.le_refl _

/-- The command stays to the end of the event. -/
theorem finish_commands {s : Part} {p : Port} {n : Nat} (h : (followNodes s).commandsOrFull p n) :
    (finish (followRoom (followSenders (followNodes s)))).commandsOrFull p n := by
  have sent : Reaction (followNodes s) (followSenders (followNodes s)) := .followSenders _
  have room : ((followSenders (followNodes s)).ownQ p).length ≤
      ((followRoom (followSenders (followNodes s))).ownQ p).length := by
    unfold followRoom
    split
    · exact setCond_ownQ ..
    · exact Nat.le_refl _
  have ended : Reaction (followRoom (followSenders (followNodes s))) (finish _) := .finish _
  exact ((h.mono (SameReach.followSenders _).toAware (sent.ownQ p).1).mono (SameReach.followRoom _).toAware room).mono
    (SameReach.finish _).toAware (ended.ownQ p).1

/-! ### The refresh timer -/

theorem startRefresh_refreshes {s : Part} {ch : Fin 25} {n : Nat} {r : LampNode} (mem : ch ∈ s.remotesOf n)
    (used : (s.chan ch).state ≠ .off) (record : s.lampNode n = some r) : (startRefresh ch s).refreshes n := by
  obtain ⟨far, -, node⟩ := mem_remotesOf.1 mem
  have started : startRefresh ch s = s.onLampNode n fun r => { r with refresh := some (r.refresh.getD 200) } := by
    rw [← node]
    exact if_pos (kindOf_remote far)
  rw [started]
  refine ⟨?_, { r with refresh := some (r.refresh.getD 200) }, ?_, Option.some_ne_none _⟩
  · exact List.any_eq_true.2 ⟨ch, mem, bne_iff_ne.2 used⟩
  · have timed := onLampNode_lampNode s n (fun r => { r with refresh := some (r.refresh.getD 200) }) fun _ => rfl
    rw [timed, record]
    rfl

/-- A channel that claims has its node refreshed. -/
theorem claimChan_refreshes {s : Part} {ch : Fin 25} {n : Nat} {r : LampNode} (mem : ch ∈ s.remotesOf n)
    (record : s.lampNode n = some r) : (claimChan ch s).refreshes n := by
  have started : ∀ c : Chan, c.state ≠ .off → (startRefresh ch (s.setChan ch c)).refreshes n := fun c used => by
    refine startRefresh_refreshes mem ?_ record
    rw [setChan_chan]
    exact used
  unfold claimChan
  split
  · exact ((Within.noteFault ch _).trans (.settleLights _)).refreshes n (started _ ChanState.noConfusion)
  · exact (Within.makeClaim ch _ _).refreshes n (started _ ChanState.noConfusion)

/-- A node heard again whose channel was UNREACHABLE is refreshed. -/
theorem followNodes_refreshes {s : Part} {n : Nat} {ch : Fin 25} (mem : ch ∈ s.remotesOf n) (heard : s.heard n = true)
    (unreached : (n, false) ∈ s.reach) (gone : (s.chan ch).state = .unreachable) (none : s.queued ch = []) :
    (followNodes s).refreshes n := by
  obtain ⟨t, post, turn, -, still, ⟨r, record⟩, spared⟩ := followNodes_turn heard unreached
  have mem' : ch ∈ t.remotesOf n := by
    rw [remotesOf_still still]
    exact mem
  obtain ⟨none', -, chan⟩ := (spared ch mem).idle none
  obtain ⟨u, rest, turn', spared', still', ⟨r', record'⟩, -⟩ := regainNode_turn record mem'
  obtain ⟨-, -, chan'⟩ := spared'.idle none'
  have own : regainChan u ch = claimChan ch u :=
    if_pos ((untimed_state chan').trans ((untimed_state chan).trans gone))
  have claimed := claimChan_refreshes (by rw [remotesOf_still still']; exact mem') record'
  rw [turn, turn', own]
  exact ((Within.foldl .regainChan rest _).trans (.foldl .regainNode post _)).refreshes n claimed

end Sys2Proof.Machine
end

section
/-! A lamp node and a sender heard again (04: R73; 08: R144), and what the end of a good frame teaches (02: R26 to R31;
obligation O19). -/

namespace Sys2Proof.Machine

section
variable {s : Part} (fresh : ∀ i, (s.input i).fresh = s.freshNow i) (deferral : s.power.deferral = false)

/-! ### The lamp node -/

/-- A lamp node heard again can be reached. -/
theorem followLink_reached {n : Nat} (heard : s.heard n = true) (unreached : (n, false) ∈ s.reach) :
    ∃ r, (finish (followLink s)).lampNode n = some r ∧ r.reachable = true := by
  have reach : (finish (followLink s)).reach = s.reach.map fun k => (k.1, s.heard k.1) :=
    (SameReach.finish _).reach.trans (followLink_reach s)
  have kept : n ∈ (finish (followLink s)).reach.map Prod.fst := by
    rw [reach, List.map_map]
    exact List.mem_map.2 ⟨(n, false), unreached, rfl⟩
  obtain ⟨r, record⟩ := lampNode_of_reach kept
  refine ⟨r, record, ?_⟩
  obtain ⟨mem, node⟩ := lampNode_some record
  rw [reachable_of_reach reach mem, node, heard]

include fresh

theorem followLink_commands {n : Nat} {p : Port} (heard : s.heard n = true) (unreached : (n, false) ∈ s.reach)
    (up : (s.port p).state ≠ .down) (target : p ∈ s.targets n) (free : s.mode ≠ .held) :
    (finish (followLink s)).commandsOrFull p n := by
  rw [followLink_same fresh]
  exact finish_commands (followNodes_commands up target free heard unreached)

include deferral

/-- An UNREACHABLE channel of a lamp node heard again: its node is refreshed, and the channel claims afresh. -/
theorem followLink_reclaims {n : Nat} {ch : Fin 25} {r : LampNode} (mem : ch ∈ s.remotesOf n)
    (heard : s.heard n = true) (unreached : (n, false) ∈ s.reach) (gone : (s.chan ch).state = .unreachable)
    (zero : s.grant ch = 0) (none : s.claimOf ch = none) (record : (finish (followLink s)).lampNode n = some r) :
    r.refresh ≠ .none ∧ (finish (followLink s)).pursues (s.freshClaim ch) (s.chan ch).demand := by
  obtain ⟨far, -, -⟩ := mem_remotesOf.1 mem
  have queued := (claimOf_none_iff s ch).1 none
  have pursued := (Spares.afterNodes fresh deferral far).pursued _ _ rfl
    (followNodes_pursues mem heard unreached gone zero queued)
  refine ⟨?_, pursued⟩
  obtain ⟨-, r', found, runs⟩ := (Within.followSenders _).refreshes n
    (followNodes_refreshes mem heard unreached gone queued)
  have records := (followLink_outputs fresh deferral).1
  unfold Part.lampNode at record found
  rw [records, found] at record
  cases record
  exact runs

/-! ### The sender -/

/-- The turn of a gauge whose sender is at hand, which stands as before until then and is spared after. -/
theorem followLink_back {g : Fin 4} (sender : (s.gaugeCfg g).source = .sender) (hand : s.senderAtHand g = true)
    (away : (s.gauge g).state ≠ .settling) : ∃ t, t.gauge g = s.gauge g ∧ t.gaugeCfg g = s.gaugeCfg g ∧
      t.mode = s.mode ∧ t.senderAtHand g = true ∧ Spares (gaugeChan g) (regainSender t g) (finish (followLink s)) := by
  have nodes : Undisturbed s (followNodes s) := (Reaction.followNodes s).still
  have cfg : ∀ {t}, Undisturbed s t → t.gaugeCfg g = s.gaugeCfg g := fun h => by
    unfold Part.gaugeCfg
    rw [h.tables]
  have here : ∀ {t}, Undisturbed s t → t.senderAtHand g = true := fun h => by
    unfold Part.senderAtHand Part.available at hand ⊢
    rw [cfg h, h.node]
    exact hand
  obtain ⟨t, before, within, still, after⟩ := followSenders_back (by rw [cfg nodes]; exact sender) (here nodes)
  have whole : Undisturbed s t := Eq.trans still nodes
  have gauge := ((Spares.followNodes_gauge s g).trans before).gauge g rfl (.inr away)
  refine ⟨t, gauge, cfg whole, ?_, here whole, after.trans ((followLink_outputs fresh deferral).leaves _).spares⟩
  unfold Part.mode
  rw [within.power, (Within.followNodes s).power]

variable {g : Fin 4} (sender : (s.gaugeCfg g).source = .sender) (hand : s.senderAtHand g = true)
include sender hand

/-- A LOST gauge, and one that parks for its loss, is driven again by REPEATING. -/
theorem followLink_drives (state : (s.gauge g).state = .lost ∨
    (s.gauge g).state = .parking ∧ (s.gauge g).lostMark = true) :
    (finish (followLink s)).gauge g = { s.gauge g with
      state := .repeating, store := [], last := none, rampLeft := 0, lostMark := false } := by
  have away : (s.gauge g).state ≠ .settling := by
    rcases state with state | ⟨state, -⟩ <;> rw [state] <;> exact GaugeState.noConfusion
  obtain ⟨t, gauge, cfg, -, -, after⟩ := followLink_back fresh deferral sender hand away
  rw [regainSender_driven (by rw [cfg]; exact sender) (by rw [gauge]; exact state), gauge] at after
  have written := setGauge_gauge t g { s.gauge g with
    state := .repeating, store := [], last := none, rampLeft := 0, lostMark := false }
  exact (after.gauge g rfl (.inr (by rw [written]; exact GaugeState.noConfusion))).trans written

/-- A gauge that parks for another reason goes on. -/
theorem followLink_parking (state : (s.gauge g).state = .parking) (mark : (s.gauge g).lostMark = false) :
    (finish (followLink s)).gauge g = s.gauge g := by
  have away : (s.gauge g).state ≠ .settling := by
    rw [state]
    exact GaugeState.noConfusion
  obtain ⟨t, gauge, -, -, -, after⟩ := followLink_back fresh deferral sender hand away
  rw [regainSender_parking (by rw [gauge]; exact state) (by rw [gauge]; exact mark)] at after
  exact (after.gauge g rfl (.inr (by rw [gauge]; exact away))).trans gauge

/-- A PARKED gauge starts, where RUNNING and its nominal current let it. -/
theorem followLink_starts (state : (s.gauge g).state = .parked) :
    ((finish (followLink s)).gauge g).lostMark = false ∧ (((finish (followLink s)).gauge g).state = .parked ↔
      ¬ (s.mode = .running ∧ 0 < (s.gaugeCfg g).nominal)) := by
  have away : (s.gauge g).state ≠ .settling := by
    rw [state]
    exact GaugeState.noConfusion
  obtain ⟨t, gauge, cfg, mode, here, after⟩ := followLink_back fresh deferral sender hand away
  have marked : (markLost g false t).gauge g = { t.gauge g with lostMark := false } := setGauge_gauge ..
  have may : (markLost g false t).mayStart g = true ↔ s.mode = .running ∧ 0 < (s.gaugeCfg g).nominal := by
    rw [← cfg, ← mode]
    have same : (markLost g false t).mayStart g = t.mayStart g := rfl
    rw [same]
    unfold Part.mayStart
    simp [here]
  have parked : ((markLost g false t).gauge g).state = .parked := by
    rw [marked, gauge]
    exact state
  obtain ⟨mark, parks, -⟩ := startTest_parked parked (by rw [marked])
  rw [regainSender_parked (by rw [gauge]; exact state)] at after
  rw [← may, Bool.not_eq_true, ← parks]
  by_cases stays : ((startTest (markLost g false t) g).gauge g).state = .parked
  · rw [after.gauge g rfl (.inr (by rw [stays]; exact GaugeState.noConfusion))]
    exact ⟨mark, Iff.rfl⟩
  · obtain ⟨begun, mark'⟩ := after.begun g rfl stays
    exact ⟨mark'.trans mark, iff_of_false begun stays⟩

end

end Sys2Proof.Machine
end

section
/-! What the end of a good frame teaches (02: R26 to R31; 04: R73; 08: R144; obligation O19). -/

namespace Sys2Proof.Machine

/-! ### The part that has learned -/

/-- A part that has learned a source on a port is otherwise, but for ports and queues, the one before. -/
structure Taught (p : Port) (n : Nat) (s t : Part) : Prop where
  outputs : SameOutputs s t
  inputs : t.inputs = s.inputs
  power : t.power = s.power
  own : t.mgmt.node = s.mgmt.node
  tables : t.tables = s.tables
  entry : ∃ e, t.node n = some e ∧ e.age = 0 ∧ e.port = some p

theorem learned_present (e : NodeEntry) (kind : Nat) (p : Port) :
    (e.learned kind p).age = 0 ∧ (e.learned kind p).port = some p := ⟨rfl, (heardOn_rest e p).1⟩

theorem learn_taught {s w : Part} {n : Nat} (kind : Nat) (p : Port) (before : Untaught s w)
    (other : n ≠ w.mgmt.node) (held : (learn n kind p w).node n ≠ none) : Taught p n s (learn n kind p w) := by
  have nodes : ∀ ns, learn n kind p w = w.setNodes ns →
      (∃ e, (learn n kind p w).node n = some e ∧ e.age = 0 ∧ e.port = some p) → Taught p n s (learn n kind p w) :=
    fun ns same entry => by
      refine ⟨?_, ?_, ?_, ?_, ?_, entry⟩ <;> rw [same]
      · exact before.outputs
      · exact before.inputs
      · exact before.power
      · exact before.own
      · exact before.tables
  cases known : w.node n with
  | some e =>
    refine nodes _ (learn_known kind p other known) ⟨e.learned kind p, ?_, learned_present e kind p⟩
    exact (learn_known_node kind p other known n).trans (if_pos rfl)
  | none =>
    cases room : hasRoom w.relay.nodes with
    | true => exact nodes _ (learn_new kind p other known room) ⟨_, learn_new_node kind p other known room, rfl, rfl⟩
    | false =>
      rw [learn_crowded kind p other known room] at held
      exact absurd (((setCond_still .nodeTableFull true w).node n).trans known) held

section
variable {p : Port} {n : Nat} {u s : Part} (taught : Taught p n u s)
include taught

theorem Taught.heard (up : (s.port p).state = .up) : s.heard n = true := by
  obtain ⟨e, found, young, at_⟩ := taught.entry
  exact (heard_iff s n).2 ⟨e, p, found, by omega, at_, up⟩

theorem Taught.available : s.available n = true := by
  obtain ⟨e, found, young, -⟩ := taught.entry
  exact (available_iff s n).2 ⟨e, found, by omega⟩

/-- A LAMP_COMMAND to the node enters the queue of the port. -/
theorem Taught.target : p ∈ s.targets n := by
  obtain ⟨e, found, -, at_⟩ := taught.entry
  unfold Part.targets Part.knownPort
  rw [found]
  dsimp only
  split
  · rename_i q known
    rw [at_] at known
    split at known
    · cases known
    · cases known
      exact List.mem_singleton_self p
  · cases p <;> simp

theorem Taught.chan (ch : Fin 25) : s.chan ch = u.chan ch := by
  unfold Part.chan
  rw [taught.outputs.1]

theorem Taught.gauge (g : Fin 4) : s.gauge g = u.gauge g := by
  obtain ⟨-, -, -, -, gauges⟩ := taught.outputs
  unfold Part.gauge
  rw [gauges]

theorem Taught.grant (ch : Fin 25) : s.grant ch = u.grant ch := by
  obtain ⟨-, arbiter, -⟩ := taught.outputs
  unfold Part.grant
  rw [arbiter]

theorem Taught.claimOf (ch : Fin 25) : s.claimOf ch = u.claimOf ch := by
  obtain ⟨-, arbiter, -⟩ := taught.outputs
  unfold Part.claimOf
  rw [arbiter]

theorem Taught.lampNode (k : Nat) : s.lampNode k = u.lampNode k := by
  unfold Part.lampNode
  rw [taught.outputs.1]

theorem Taught.chanCfg (ch : Fin 25) : s.chanCfg ch = u.chanCfg ch := by
  unfold Part.chanCfg
  rw [taught.tables]

theorem Taught.gaugeCfg (g : Fin 4) : s.gaugeCfg g = u.gaugeCfg g := by
  unfold Part.gaugeCfg
  rw [taught.tables]

theorem Taught.mode : s.mode = u.mode := by
  unfold Part.mode
  rw [taught.power]

theorem Taught.deferral (h : u.power.deferral = false) : s.power.deferral = false := by
  rw [taught.power]
  exact h

/-- Freshness that the event does not change stands as it should when the source is learned. -/
theorem Taught.fresh (h : ∀ i, ((finish (followLink s)).input i).fresh = (u.input i).fresh) (i : Fin 32) :
    (s.input i).fresh = s.freshNow i := by
  have same : s.input i = u.input i := by
    unfold Part.input
    rw [taught.inputs]
  rw [same, ← h, followLink_fresh]

end

/-! ### The claim of a channel -/

/-- A channel on its way, in the words of the channel table. -/
theorem pursues_claim {s t : Part} {ch : Fin 25} {d : Demand} (far : 17 ≤ ch.val) (h : t.pursues (s.freshClaim ch) d) :
    (t.chan ch).demand = d ∧
      ((t.chan ch).state = .on ∧ t.grant ch = (s.chanCfg ch).nominal ∧ t.claimOf ch = none ∨
        (t.chan ch).state = .waiting ∧ t.grant ch = 0 ∧ t.claimOf ch =
          some { chan := ch, amount := (s.chanCfg ch).nominal, cls := s.classOf ch, shed := false }) := by
  have amount : s.nominal ch = (s.chanCfg ch).nominal := by
    unfold Part.nominal
    rw [kindOf_remote far]
  have claim : s.freshClaim ch =
      { chan := ch, amount := (s.chanCfg ch).nominal, cls := s.classOf ch, shed := false } := by
    unfold Part.freshClaim
    rw [amount]
  rw [claim] at h
  refine ⟨h.demand, h.granted.imp (fun ⟨on, grant, idle⟩ => ⟨on, grant, (claimOf_none_iff t ch).2 idle⟩)
    fun ⟨waiting, zero, queued⟩ => ⟨waiting, zero, ?_⟩⟩
  rw [claimOf_eq]
  exact congrArg List.head? queued

/-! ### The event -/

/-- The part that has learned the source of the good frame on a port. -/
def learnFrame (p : Port) (u : Part) : Part :=
  learn ((u.port p).rx.bytes.getD 2 0).toNat ((u.port p).rx.bytes.getD 3 0).toNat p (beforeLearning p (hear p u))

theorem exec_endSymbol_learns {s : State} {p : Port} (on : s.part.on = true) (loud : s.part.mode ≠ .quiet)
    (up : (s.part.port p).state ≠ .down) (body : (s.part.port p).rx.phase = .body)
    (good : judge (s.part.port p).mode (s.part.port p).rx.bytes (s.part.port p).rx.half = .good) :
    exec (.endSymbol p) s =
      .next { s with part := finish (takeReframe p (followLink (learnFrame p s.part))) } := by
  rw [exec_endSymbol_good on loud up body good, endGood_eq]
  unfold learnSource learnFrame beforeLearning
  rw [hear_rx]
  rfl

theorem beforeFrame_untaught (p : Port) (u : Part) : Untaught u (beforeLearning p (hear p u)) :=
  (Untaught.hear p u).trans (beforeLearning_untaught p _)

theorem learn_port (n kind : Nat) (p q : Port) (s : Part) : (learn n kind q s).port p = s.port p := by
  unfold learn
  split
  · rfl
  · split
    · rfl
    · split
      · rfl
      · unfold Part.port
        rw [(FlagsOnly.setCond ..).ports]

/-- No REFRAME waits, so the event is over when the link has been followed. -/
theorem learnFrame_unframed {p : Port} {u : Part} (h : (u.port p).reframe = false) :
    takeReframe p (followLink (learnFrame p u)) = followLink (learnFrame p u) := by
  refine takeReframe_none ?_
  rw [core_reframe (followLink_core (learnFrame p u) p)]
  unfold learnFrame
  rw [learn_port, beforeLearning_port, hear_reframe, h]

theorem learnFrame_stays (p : Port) (u : Part) :
    TableStays (learnFrame p u) (finish (takeReframe p (followLink (learnFrame p u)))) :=
  ((TableStays.followLink _).trans (.takeReframe p _)).trans (.of_undisturbed (finish_still _))

end Sys2Proof.Machine
end

section
/-! A good frame teaches its source (02: R26 to R31; obligation O19). -/

namespace Sys2Proof.Machine

/-- What a good frame makes of the moves of an entry. -/
theorem learned_moves (e : NodeEntry) (kind : Nat) (p : Port) :
    let e' := e.learned kind p
    (e.port = none ∨ e.port = some p → e'.moves = e.moves ∧ e'.duplicate = e.duplicate ∧ e'.window = e.window ∧
      e'.quietTime = e.quietTime) ∧
    (e.port = some p.other → e'.quietTime = 0 ∧
      (e.duplicate = true → e'.duplicate = true ∧ e'.moves = 3) ∧
      (e.duplicate = false → e.moves = 0 ∨ 10000 ≤ e.window → e'.duplicate = false ∧ e'.moves = 1 ∧ e'.window = 0) ∧
      (e.duplicate = false → e.moves ≠ 0 → e.window < 10000 →
        (e'.duplicate = true ↔ 3 ≤ e.moves + 1) ∧ e'.moves = min 3 (e.moves + 1))) := by
  intro e'
  refine ⟨fun stays => heardOn_stays stays, fun moves => ?_⟩
  have moved : (e'.quietTime = (e.moved p).quietTime ∧ e'.duplicate = (e.moved p).duplicate) ∧
      e'.moves = (e.moved p).moves ∧ e'.window = (e.moved p).window := by
    rw [← heardOn_moved moves]
    exact ⟨⟨rfl, rfl⟩, rfl, rfl⟩
  obtain ⟨⟨quiet, twice⟩, count, window⟩ := moved
  rw [quiet, twice, count, window]
  refine ⟨moved_quietTime e p, fun two => ?_, fun one first => ?_, fun one again soon => ?_⟩
  · rw [moved_duplicate p two]
    exact ⟨two, rfl⟩
  · rw [moved_first p one first]
    exact ⟨one, rfl, rfl⟩
  · rw [moved_again p one again soon]
    exact ⟨decide_eq_true_iff, rfl⟩

section
variable {p : Port} {n : Nat} {u s : Part} (taught : Taught p n u s) (deferral : u.power.deferral = false)
  (unchanged : ∀ i, ((finish (followLink s)).input i).fresh = (u.input i).fresh)
include taught deferral unchanged

/-- A lamp node heard again is commanded, and its UNREACHABLE channels claim afresh. -/
theorem Taught.lampNodes {r : LampNode} (record : u.lampNode n = some r) (away : r.reachable = false)
    (up : (s.port p).state = .up) : ∃ r', (finish (followLink s)).lampNode n = some r' ∧ r'.reachable = true ∧
      (u.mode ≠ .held → ((finish (followLink s)).ownQ p).length < 8 → ∃ lit dim duty,
        { dest := n, source := u.mgmt.node, body := .lampCommand lit dim duty } ∈ (finish (followLink s)).ownQ p) ∧
      ∀ ch : Fin 25, 17 ≤ ch.val → 0 < (u.chanCfg ch).nominal → (u.chanCfg ch).node = n →
        (u.chan ch).state = .unreachable → u.grant ch = 0 → u.claimOf ch = none →
        r'.refresh ≠ none ∧ ((finish (followLink s)).chan ch).demand = (u.chan ch).demand ∧
        (((finish (followLink s)).chan ch).state = .on ∧ (finish (followLink s)).grant ch = (u.chanCfg ch).nominal ∧
            (finish (followLink s)).claimOf ch = none ∨
          ((finish (followLink s)).chan ch).state = .waiting ∧ (finish (followLink s)).grant ch = 0 ∧
            (finish (followLink s)).claimOf ch =
              some { chan := ch, amount := (u.chanCfg ch).nominal, cls := u.classOf ch, shed := false }) := by
  have fresh := taught.fresh unchanged
  have calm := taught.deferral deferral
  have heard := taught.heard up
  have unreached : (n, false) ∈ s.reach := by
    obtain ⟨mem, node⟩ := lampNode_some ((taught.lampNode n).trans record)
    exact List.mem_map.2 ⟨r, mem, by rw [LampNode.key, node, away]⟩
  obtain ⟨r', record', reached⟩ := followLink_reached heard unreached
  refine ⟨r', record', reached, fun free places => ?_, fun ch far used node gone zero idle => ?_⟩
  · have aware : Aware s (finish (followLink s)) := (Aware.followLink s).trans (SameReach.finish _).toAware
    have commanded := followLink_commands fresh heard unreached (by rw [up]; exact LinkState.noConfusion) taught.target
      (by rw [taught.mode]; exact free)
    obtain ⟨lit, dim, duty, waits⟩ := commanded.resolve_right (Nat.not_le_of_lt places)
    rw [aware.node, taught.own] at waits
    exact ⟨lit, dim, duty, waits⟩
  · have mem : ch ∈ s.remotesOf n := mem_remotesOf.2 ⟨far, by rw [taught.chanCfg]; exact used,
      by rw [taught.chanCfg]; exact node⟩
    obtain ⟨refresh, pursued⟩ := followLink_reclaims fresh calm mem heard unreached
      (by rw [taught.chan]; exact gone) (by rw [taught.grant]; exact zero) (by rw [taught.claimOf]; exact idle) record'
    rw [freshClaim_tables taught.tables, taught.chan] at pursued
    exact ⟨refresh, pursues_claim far pursued⟩

/-- A sender heard again drives its LOST gauges, and starts its PARKED ones. -/
theorem Taught.gauges {g : Fin 4} (sender : (u.gaugeCfg g).source = .sender) (node : (u.gaugeCfg g).node = n) :
    let x := u.gauge g
    let y := (finish (followLink s)).gauge g
    (x.state = .lost ∨ x.state = .parking ∧ x.lostMark = true →
      y = { x with state := .repeating, store := [], last := none, rampLeft := 0, lostMark := false }) ∧
    (x.state = .parking → x.lostMark = false → y = x) ∧
    (x.state = .parked → y.lostMark = false ∧
      (y.state = .parked ↔ ¬ (u.mode = .running ∧ 0 < (u.gaugeCfg g).nominal))) := by
  have fresh := taught.fresh unchanged
  have calm := taught.deferral deferral
  have source : (s.gaugeCfg g).source = .sender := by
    rw [taught.gaugeCfg]
    exact sender
  have hand : s.senderAtHand g = true := by
    unfold Part.senderAtHand
    rw [taught.gaugeCfg, node, taught.available]
    exact Bool.or_true _
  intro x y
  rw [← taught.mode, ← taught.gaugeCfg g, show x = s.gauge g from (taught.gauge g).symm]
  exact ⟨followLink_drives fresh calm source hand, followLink_parking fresh calm source hand,
    followLink_starts fresh calm source hand⟩

end

/-- Settles O19, by what the learning makes of the table and what then follows from the link. -/
theorem goodFrameTeachesItsSource : Obligations.GoodFrameTeachesItsSource := by
  intro s p on loud up body good n kind role room
  let w := beforeLearning p (hear p s.part)
  have before : Untaught s.part w := beforeFrame_untaught p s.part
  have old : ∀ k, w.node k = s.part.node k := fun k => congrArg (findNode · k) before.nodes
  have stays : TableStays (learn n kind p w) _ := learnFrame_stays p s.part
  have new : ∀ k, (finish (takeReframe p (followLink (learnFrame p s.part)))).node k = (learn n kind p w).node k :=
    fun k => congrArg (findNode · k) stays.nodes
  have other : n ≠ s.part.mgmt.node → n ≠ w.mgmt.node := fun ne => before.own ▸ ne
  have roomy : hasRoom w.relay.nodes = true ↔ room := by
    rw [before.nodes]
    exact hasRoom_iff _
  refine ⟨_, exec_endSymbol_learns on loud up body good, fun own => ?_, fun ne known k hk => ?_,
    fun ne unknown ok full has => ?_, fun ne e known => ?_, fun ne unknown has => ?_, fun ne unknown has => ?_,
    fun unframed deferral ne held unchanged => ?_⟩
  · rw [stays.nodes, stays.ownTimer, learn_own kind p (own.trans before.own.symm)]
    exact ⟨rfl, before.nodes⟩
  · rw [new, ← old]
    cases entry : w.node n with
    | some e => exact (learn_known_node kind p (other ne) entry k).trans (if_neg hk.symm)
    | none =>
      have free := known.resolve_left (not_not_intro ((old n).symm.trans entry))
      exact learn_free_node kind p (other ne) entry (by rw [before.nodes]; exact free) hk
  · cases goner : replaceable w.relay.nodes with
    | none =>
      rw [before.nodes] at goner
      exact absurd (has.resolve_left (by omega)) (replaceable_none goner)
    | some x =>
      have others : ∀ k, k ≠ n → (learn n kind p w).node k = if x.node = k then none else w.node k := fun k hk =>
        learn_replaced kind p (other ne) ((old n).trans unknown) (by rw [before.nodes]; omega) goner hk
      rw [before.nodes] at goner
      obtain ⟨⟨mem, unpinned, lost⟩, most⟩ := replaceable_some goner
      refine ⟨x, mem, unpinned, lost, most ok.tableOk.order, ?_, fun k hk gone => ?_⟩
      · rw [new, others x.node (findNode_none unknown x mem), if_pos rfl]
      · rw [new, others k hk, if_neg gone.symm, old]
  · obtain ⟨at_, pinned, expected, -⟩ := heardOn_rest e p
    refine ⟨e.learned kind p, ?_, rfl, at_, pinned, expected, rfl, learned_moves e kind p⟩
    rw [new, learn_known_node kind p (other ne) ((old n).trans known), if_pos rfl]
  · refine ⟨NodeEntry.fresh n kind p, ?_, rfl, rfl, rfl, rfl, rfl, rfl⟩
    rw [new, learn_new_node kind p (other ne) ((old n).trans unknown) (roomy.2 has)]
  · have crowded := Bool.eq_false_iff.2 (roomy.not.2 has)
    have same := learn_crowded kind p (other ne) ((old n).trans unknown) crowded
    have nodes : (learn n kind p w).relay.nodes = w.relay.nodes := by
      rw [same]
      exact (setCond_still .nodeTableFull true w).relay.1
    refine ⟨stays.nodes.trans (nodes.trans before.nodes), stays.full (by rw [nodes]; exact crowded) ?_⟩
    rw [same, setCond_active]
    exact if_pos rfl
  · have taught : Taught p n s.part (learnFrame p s.part) := learn_taught kind p before (other ne) (new n ▸ held)
    have ended := learnFrame_unframed (u := s.part) unframed
    rw [ended] at unchanged ⊢
    refine ⟨fun r record away up => ?_, fun g sender node => taught.gauges deferral unchanged sender node⟩
    rw [finish_port, core_state (followLink_core ..)] at up
    exact taught.lampNodes deferral unchanged record away up

end Sys2Proof.Machine
end

section
/-! A SWITCH_STATE frame at switch intake (03: R52 to R55; obligation O29). -/

namespace Sys2Proof.Machine

/-! ### A report at an input (03: R53 to R55) -/

/-- The equal reports so far, one of value `v` included, that speak against the value of an input (R54). -/
def Input.agreeing (x : Input) (v : Nat) : Nat := if x.candidate = some v then x.count + 1 else 1

theorem advance_settles {x : Input} {v debounce : Nat} (enough : x.agreeing v = debounce) :
    x.advance v debounce = { x with value := v, candidate := none, count := 0 } := if_pos enough

theorem advance_counts {x : Input} {v debounce : Nat} (early : x.agreeing v ≠ debounce) :
    x.advance v debounce = { x with candidate := some v, count := x.agreeing v } := if_neg early

theorem report_above {x : Input} {v limit : Nat} (debounce : Nat) (above : limit < v) :
    x.report v debounce limit = { x with overLimit := if x.overLimit < 255 then x.overLimit + 1 else x.overLimit } :=
  if_pos above

section

variable {x : Input} {v limit : Nat} (debounce : Nat) (inside : v ≤ limit)
include inside

theorem report_resync (resync : x.resync = true) :
    x.report v debounce limit = { x with value := v, candidate := none, count := 0, resync := false } :=
  (if_neg (Nat.not_lt.2 inside)).trans (if_pos resync)

/-- An input that is not waiting for its first report compares the report with its value. -/
theorem report_compare (synced : x.resync = false) : x.report v debounce limit =
    if v = x.value then { x with candidate := none, count := 0 } else x.advance v debounce :=
  (if_neg (Nat.not_lt.2 inside)).trans (if_neg (Bool.eq_false_iff.1 synced))

theorem report_equal (synced : x.resync = false) (equal : v = x.value) :
    x.report v debounce limit = { x with candidate := none, count := 0 } :=
  (report_compare debounce inside synced).trans (if_pos equal)

theorem report_differs (synced : x.resync = false) (differs : v ≠ x.value) :
    x.report v debounce limit = x.advance v debounce :=
  (report_compare debounce inside synced).trans (if_neg differs)

end

/-! ### The inputs a frame reaches (03: R52) -/

/-- A frame of a source carries the slot that feeds a FRESH input by this map entry (R52). -/
structure Part.reachedBy (s : Part) (source : Nat) (payload : List Byte) (i : Fin 32) (m : MapCfg) : Prop where
  mapped : s.mapEntry i = some m
  source : m.source = source
  carried : m.slot < payload.length
  fresh : (s.input i).fresh = true

variable {s : Part} {source : Nat} {payload : List Byte} {i : Fin 32}

theorem reachedBy_iff {m : MapCfg} : s.reachedBy source payload i m ↔
    s.mapEntry i = some m ∧ m.source = source ∧ m.slot < payload.length ∧ (s.input i).fresh = true :=
  ⟨fun ⟨mapped, from_, carried, fresh⟩ => ⟨mapped, from_, carried, fresh⟩,
    fun ⟨mapped, from_, carried, fresh⟩ => ⟨mapped, from_, carried, fresh⟩⟩

theorem slotReport_eq_some {m : MapCfg} {v : Nat} : s.slotReport source payload i = some (m, v) ↔
    s.reachedBy source payload i m ∧ at1 payload m.slot = v := by
  unfold Part.slotReport
  cases mapped : s.mapEntry i with
  | none => exact ⟨nofun, fun h => nomatch mapped.symm.trans h.1.mapped⟩
  | some k =>
    simp only [Option.ite_none_right_eq_some, Option.some.injEq, Prod.mk.injEq]
    constructor
    · rintro ⟨⟨from_, carried, fresh⟩, rfl, value⟩
      exact ⟨⟨mapped, from_, carried, fresh⟩, value⟩
    · rintro ⟨⟨same, from_, carried, fresh⟩, value⟩
      obtain rfl : k = m := Option.some.inj (mapped.symm.trans same)
      exact ⟨⟨from_, carried, fresh⟩, rfl, value⟩

theorem slotReport_eq_none : s.slotReport source payload i = none ↔ ¬ ∃ m, s.reachedBy source payload i m := by
  rw [Option.eq_none_iff_forall_ne_some]
  refine ⟨fun unread ⟨m, reached⟩ => unread _ (slotReport_eq_some.2 ⟨reached, rfl⟩), fun unreached r read => ?_⟩
  exact unreached ⟨r.1, (slotReport_eq_some.1 read).1⟩

theorem takeReports_reached {m : MapCfg} (reached : s.reachedBy source payload i m) :
    (takeReports source payload s).input i = (s.input i).report (at1 payload m.slot) m.debounce m.limit := by
  refine (tab_get _ i).trans ?_
  rw [slotReport_eq_some.2 ⟨reached, rfl⟩]

theorem takeReports_unreached (unreached : ¬ ∃ m, s.reachedBy source payload i m) :
    (takeReports source payload s).input i = s.input i := by
  refine (tab_get _ i).trans ?_
  rw [slotReport_eq_none.2 unreached]

/-! ### The event -/

theorem isUp_iff (s : Part) (p : Port) : s.isUp p = true ↔ (s.port p).state = .up := beq_iff_eq

theorem switchReport_up {p : Port} (up : (s.port p).state = .up) :
    switchReport p source payload s = deliverNotice s (takeReports source payload s) := if_pos ((isUp_iff s p).2 up)

theorem switchReport_away {p : Port} (away : (s.port p).state ≠ .up) : switchReport p source payload s = s :=
  if_neg (mt (isUp_iff s p).1 away)

/-- What follows the reports leaves the inputs as the reports made them. -/
theorem switchReport_inputs {p : Port} (up : (s.port p).state = .up) :
    (finish (switchReport p source payload s)).inputs = (takeReports source payload s).inputs := by
  rw [switchReport_up up]
  exact ((Reaction.deliverNotice s _).trans (.finish _)).still.inputs

/-- The frame writes inputs; the rest of the event is a reaction. -/
theorem switchReport_still (p : Port) (source : Nat) (payload : List Byte) (s : Part) :
    Undisturbed (s.setInputs (finish (switchReport p source payload s)).inputs)
      (finish (switchReport p source payload s)) := by
  by_cases up : (s.port p).state = .up
  · rw [switchReport_inputs up, switchReport_up up]
    exact ((Reaction.deliverNotice s _).trans (.finish _)).still
  · have still : Undisturbed s (finish (switchReport p source payload s)) := by
      rw [switchReport_away up]
      exact finish_still s
    rw [still.inputs]
    exact still

theorem takeEntry_inputs (s : Part) : (takeEntry s).inputs = s.inputs := by
  obtain ⟨-, b, still⟩ := takeEntry_flags s
  exact still.inputs

/-- A frame reaches the same inputs whether its entry is still queued or taken. -/
theorem takeEntry_reachedBy (s : Part) (source : Nat) (payload : List Byte) (i : Fin 32) (m : MapCfg) :
    (takeEntry s).reachedBy source payload i m ↔ s.reachedBy source payload i m := by
  obtain ⟨-, tables, -⟩ := takeEntry_ready s
  have mapEntry : (takeEntry s).mapEntry i = s.mapEntry i := by unfold Part.mapEntry; rw [tables]
  have input : (takeEntry s).input i = s.input i := by unfold Part.input; rw [takeEntry_inputs]
  rw [reachedBy_iff, reachedBy_iff, mapEntry, input]

/-- A SWITCH_STATE frame goes to switch intake (02: R34). -/
theorem exec_switchState {s : State} {e : RxEntry} (awake : s.part.awake = true) (next : s.part.nextEntry = some e)
    (kind : e.kind = 0x11) (dest : e.dest ≠ 0) : exec .switchState s =
      s.nextPart (finish (switchReport e.arrival e.source e.payload (takeEntry s.part))) := by
  have consumer : e.consumer = .switchIntake := by
    simp [RxEntry.consumer, kind, dest, kindMgRequest, kindSwitchState]
  exact congrArg s.nextPart (dispatchIf_eq _ awake next (beq_iff_eq.2 consumer))

/-- Settles O29, by what the reports make of the inputs and what the rest of the event leaves of them. -/
theorem switchReportMovesInputs : Obligations.SwitchReportMovesInputs := by
  intro s e awake next kind dest u reaches
  let w := takeEntry u
  obtain ⟨-, -, -, -, ports, -⟩ := takeEntry_ready u
  have state : (w.port e.arrival).state = (u.port e.arrival).state := by unfold Part.port; rw [ports]
  have input : ∀ i, w.input i = u.input i := fun i => by unfold Part.input; rw [takeEntry_inputs]
  have reached : ∀ i m, w.reachedBy e.source e.payload i m ↔ reaches i m := fun i m =>
    (takeEntry_reachedBy u e.source e.payload i m).trans reachedBy_iff
  have away : (u.port e.arrival).state ≠ .up →
      (finish (switchReport e.arrival e.source e.payload w)).inputs = u.inputs := fun notUp => by
    rw [switchReport_away (state ▸ notUp)]
    exact (finish_still w).inputs.trans (takeEntry_inputs u)
  have taken : (u.port e.arrival).state = .up → ∀ i, (finish (switchReport e.arrival e.source e.payload w)).input i =
      (takeReports e.source e.payload w).input i := fun up i =>
    congrArg (·.get i) (switchReport_inputs (state.trans up))
  refine ⟨_, exec_switchState awake next kind dest, away, fun i unreached => ?_, fun i m up reach => ?_,
    switchReport_still ..⟩
  · by_cases up : (u.port e.arrival).state = .up
    · rw [taken up, takeReports_unreached fun ⟨m, h⟩ => unreached ⟨m, (reached i m).1 h⟩, input]
    · exact congrArg (·.get i) (away up)
  · rw [taken up, takeReports_reached ((reached i m).2 reach), input]
    exact ⟨report_above m.debounce, report_resync m.debounce, report_equal m.debounce,
      fun inside synced differs enough => (report_differs _ inside synced differs).trans (advance_settles enough),
      fun inside synced differs early => (report_differs _ inside synced differs).trans (advance_counts early)⟩

end Sys2Proof.Machine
end

section
/-! The lamp-type channels at the end of an event (04: R62 to R65): their state and lit field, and what the end of the
event leaves of them. -/

namespace Sys2Proof.Machine

/-! ### Lamp-type channels -/

theorem kindOf_lampType {ch : Fin 25} (h : lampType ch = true) : kindOf ch = .lamp ∨ kindOf ch = .remote := by
  simp only [lampType, Bool.or_eq_true, decide_eq_true_eq] at h
  rcases h with local_ | far
  · exact .inl (if_pos local_)
  · exact .inr (kindOf_remote far)

theorem kindOf_lampChan (l : Fin 12) : kindOf (lampChan l) = .lamp := if_pos l.isLt

theorem lampType_lampChan (l : Fin 12) : lampType (lampChan l) = true := by simp [lampType, lampChan]

theorem lampType_remote {ch : Fin 25} (h : 17 ≤ ch.val) : lampType ch = true := by simp [lampType, h]

theorem lampChan_inj {l k : Fin 12} (h : lampChan l = lampChan k) : l = k :=
  Fin.ext (show (lampChan l).val = (lampChan k).val from congrArg Fin.val h)

theorem lit_lampType {ch : Fin 25} (lamp : lampType ch = true) (s : Part) :
    s.lit ch = litBy (s.chan ch).demand (s.chan ch).state s.lamps.flasher.state := by
  unfold Part.lit
  rcases kindOf_lampType lamp with kind | kind <;> rw [kind]

theorem chanState_lampType {ch : Fin 25} (lamp : lampType ch = true) (s : Part) :
    s.chanState ch = (s.chan ch).state := by
  unfold Part.chanState
  rcases kindOf_lampType lamp with kind | kind <;> rw [kind]

/-- A lit channel is ON (04: Table 5). -/
theorem state_of_lit {ch : Fin 25} (lamp : lampType ch = true) {s : Part} (lit : s.lit ch = true) :
    (s.chan ch).state = .on := by
  rw [lit_lampType lamp] at lit
  exact beq_iff_eq.1 (Bool.and_eq_true_iff.1 lit).1

theorem unlit_lampType {ch : Fin 25} (lamp : lampType ch = true) {s : Part} (state : (s.chan ch).state ≠ .on) :
    s.lit ch = false := by
  cases lit : s.lit ch with
  | false => rfl
  | true => exact absurd (state_of_lit lamp lit) state

/-- Lit asks that the phase be ON of a flashing demand alone. -/
theorem lit_of_lit {ch : Fin 25} (lamp : lampType ch = true) {s t : Part} (lit : s.lit ch = true)
    (demand : (t.chan ch).demand = (s.chan ch).demand) (state : (t.chan ch).state = .on)
    (phase : s.lamps.flasher.state = .onPhase → t.lamps.flasher.state = .onPhase) : t.lit ch = true := by
  have on := state_of_lit lamp lit
  rw [lit_lampType lamp, on] at lit
  rw [lit_lampType lamp, demand, state]
  cases d : (s.chan ch).demand with
  | none => rw [d] at lit; cases lit
  | steady | dim duty => rfl
  | flash | telltale =>
    rw [d] at lit
    have began := phase (beq_iff_eq.1 (Bool.and_eq_true_iff.1 lit).2)
    rw [began]
    rfl

/-- A lit flashing lamp stands in an ON phase. -/
theorem phase_of_lit {ch : Fin 25} (lamp : lampType ch = true) {s : Part} (lit : s.lit ch = true)
    (demand : (s.chan ch).demand = .flash) : s.lamps.flasher.state = .onPhase := by
  rw [lit_lampType lamp, demand] at lit
  exact beq_iff_eq.1 (Bool.and_eq_true_iff.1 lit).2

/-! ### The same outputs -/

theorem SameOutputs.chan {s t : Part} (h : SameOutputs s t) (ch : Fin 25) : t.chan ch = s.chan ch := by
  obtain ⟨channels, -⟩ := h
  unfold Part.chan
  rw [channels]

theorem SameOutputs.grant {s t : Part} (h : SameOutputs s t) (ch : Fin 25) : t.grant ch = s.grant ch := by
  obtain ⟨-, arbiter, -⟩ := h
  unfold Part.grant
  rw [arbiter]

theorem SameOutputs.claimOf {s t : Part} (h : SameOutputs s t) (ch : Fin 25) : t.claimOf ch = s.claimOf ch := by
  obtain ⟨-, arbiter, -⟩ := h
  unfold Part.claimOf
  rw [arbiter]

theorem SameOutputs.lampNode {s t : Part} (h : SameOutputs s t) (n : Nat) : t.lampNode n = s.lampNode n := by
  obtain ⟨channels, -⟩ := h
  unfold Part.lampNode
  rw [channels]

/-! ### The end of the event -/

theorem allOff_of_used {s : Part} {ch : Fin 25} (lamp : lampType ch = true) (used : (s.chan ch).state ≠ .off) :
    s.allOff = false := by
  refine List.all_eq_false.2 ⟨ch, mem_allChans ch, ?_⟩
  rw [chanState_lampType lamp]
  simpa using used

/-- A lamp-type channel in use keeps the part from DORMANT entry (09: R158). -/
theorem staysAwake_of_used {s : Part} {ch : Fin 25} (lamp : lampType ch = true) (used : (s.chan ch).state ≠ .off) :
    s.staysAwake := .inr (.inr (.inr (.inr (.inl (allOff_of_used lamp used)))))

theorem finish_used {s : Part} {ch : Fin 25} (lamp : lampType ch = true) (used : (s.chan ch).state ≠ .off) :
    SameOutputs s (finish s) := (finish_outputs s (staysAwake_of_used lamp used)).1

/-- A channel is known from its fields but the overload timer, and that timer. -/
theorem chan_of_untimed {c d : Chan} (h : c.untimed = d.untimed) (timer : c.overload = d.overload) : c = d := by
  calc c = { c.untimed with overload := c.overload } := rfl
    _ = { d.untimed with overload := d.overload } := by rw [h, timer]
    _ = d := rfl

end Sys2Proof.Machine
end

section
/-! Samples of the lamps and the fan (04: R67, R68; 06: R111; 07: R126; obligation O42). -/

namespace Sys2Proof.Machine

/-! ### A sample of one lamp -/

/-- What samples of lamps leave alone: all outputs but the lamps' own fields and the fault seen by the flasher. -/
structure Sampling (s t : Part) : Prop where
  arbiter : t.arbiter = s.arbiter
  gauges : t.gauges = s.gauges
  fan : t.fan = s.fan
  lampNodes : t.channels.lampNodes = s.channels.lampNodes
  power : t.power = s.power
  tables : t.tables = s.tables
  phase : t.lamps.flasher.state = s.lamps.flasher.state
  seen : s.lamps.flasher.faultSeen = true → t.lamps.flasher.faultSeen = true

theorem Sampling.refl (s : Part) : Sampling s s := ⟨rfl, rfl, rfl, rfl, rfl, rfl, rfl, id⟩

theorem Sampling.trans {s t u : Part} (h : Sampling s t) (k : Sampling t u) : Sampling s u where
  arbiter := k.arbiter.trans h.arbiter
  gauges := k.gauges.trans h.gauges
  fan := k.fan.trans h.fan
  lampNodes := k.lampNodes.trans h.lampNodes
  power := k.power.trans h.power
  tables := k.tables.trans h.tables
  phase := k.phase.trans h.phase
  seen := k.seen ∘ h.seen

theorem Sampling.foldl {α : Type} {f : Part → α → Part} (hf : ∀ s x, Sampling s (f s x)) (xs : List α) (s : Part) :
    Sampling s (xs.foldl f s) := by
  induction xs generalizing s with
  | nil => exact .refl s
  | cons x xs ih => exact (hf s x).trans (ih _)

theorem Sampling.setChan (s : Part) (ch : Fin 25) (c : Chan) : Sampling s (s.setChan ch c) :=
  ⟨rfl, rfl, rfl, rfl, rfl, rfl, rfl, id⟩

theorem Sampling.noteFault (ch : Fin 25) (s : Part) : Sampling s (noteFault ch s) := by
  unfold Machine.noteFault
  split
  · exact ⟨rfl, rfl, rfl, rfl, rfl, rfl, rfl, fun _ => rfl⟩
  · exact .refl s

theorem Sampling.syncConds (s : Part) : Sampling s (syncConds s) := by
  obtain ⟨⟨channels, arbiter, lamps, fan, gauges⟩, power, -⟩ := FlagsOnly.syncConds s
  exact ⟨arbiter, gauges, fan, by rw [channels], power, (Reaction.syncConds s).still.tables, by rw [lamps],
    by rw [lamps]; exact id⟩

/-- A channel with its bulb judged and the flasher told of one found out. -/
def judged (ch : Fin 25) (out : Bool) (s : Part) : Part :=
  let s1 := s.setChan ch { s.chan ch with bulbOut := out }
  if out && !(s.chan ch).bulbOut then noteFault ch s1 else s1

theorem setBulbOut_eq (ch : Fin 25) (out : Bool) (s : Part) : setBulbOut ch out s = syncConds (judged ch out s) := rfl

theorem Sampling.judged (ch : Fin 25) (out : Bool) (s : Part) : Sampling s (judged ch out s) := by
  unfold Machine.judged
  dsimp only
  split
  · exact (Sampling.setChan s ch _).trans (.noteFault ch _)
  · exact .setChan s ch _

theorem Sampling.setBulbOut (ch : Fin 25) (out : Bool) (s : Part) : Sampling s (setBulbOut ch out s) :=
  (Sampling.judged ch out s).trans (.syncConds _)

theorem Sampling.sampleLamp (ch : Fin 25) (current : Nat) (s : Part) : Sampling s (sampleLamp ch current s) :=
  (Sampling.setChan s ch _).trans (.setBulbOut ch _ _)

theorem noteFault_chan (k ch : Fin 25) (s : Part) : (noteFault k s).chan ch = s.chan ch := by
  unfold noteFault
  split <;> rfl

theorem setBulbOut_chans (k : Fin 25) (out : Bool) (s : Part) (ch : Fin 25) :
    (setBulbOut k out s).chan ch = (s.setChan k { s.chan k with bulbOut := out }).chan ch := by
  rw [setBulbOut_eq, (FlagsOnly.syncConds _).outputs.chan]
  unfold judged
  dsimp only
  split
  · exact noteFault_chan ..
  · rfl

theorem setBulbOut_chan (ch : Fin 25) (out : Bool) (s : Part) :
    (setBulbOut ch out s).chan ch = { s.chan ch with bulbOut := out } := by
  rw [setBulbOut_chans, setChan_chan]

theorem setBulbOut_other {k ch : Fin 25} (out : Bool) (s : Part) (other : k ≠ ch) :
    (setBulbOut k out s).chan ch = s.chan ch := by
  rw [setBulbOut_chans, setChan_ne _ _ other]

/-- A FLASH channel found out in a phase of the flasher is remembered (06: R111). -/
theorem setBulbOut_seen {ch : Fin 25} {s : Part} (demand : (s.chan ch).demand = .flash)
    (phase : s.lamps.flasher.state = .onPhase) (before : (s.chan ch).bulbOut = false) :
    (setBulbOut ch true s).lamps.flasher.faultSeen = true := by
  let s1 := s.setChan ch { s.chan ch with bulbOut := true }
  have noted : judged ch true s = noteFault ch s1 := by
    unfold judged
    rw [before]
    rfl
  have told : noteFault ch s1 = s1.setFlasher { s1.lamps.flasher with faultSeen := true } := by
    refine if_pos ⟨?_, ?_⟩
    · rw [setChan_chan]
      exact demand
    · show s.lamps.flasher.state ≠ .idle
      rw [phase]
      exact FlasherState.noConfusion
  rw [setBulbOut_eq]
  refine (Sampling.syncConds _).seen ?_
  rw [noted, told]
  rfl

/-- A sampled lamp (04: R67, R68). -/
def Part.sampled (s : Part) (ch : Fin 25) (current : Nat) : Chan :=
  { s.chan ch with measured := current, bulbOut := decide (2 * current < s.nominal ch) }

theorem sampleLamp_chan (ch : Fin 25) (current : Nat) (s : Part) :
    (sampleLamp ch current s).chan ch = s.sampled ch current := by
  unfold sampleLamp
  rw [setBulbOut_chan, setChan_chan]
  rfl

theorem sampleLamp_other {k ch : Fin 25} (current : Nat) (s : Part) (other : k ≠ ch) :
    (sampleLamp k current s).chan ch = s.chan ch := by
  unfold sampleLamp
  rw [setBulbOut_other _ _ other, setChan_ne _ _ other]

theorem sampleLamp_seen {ch : Fin 25} {current : Nat} {s : Part} (demand : (s.chan ch).demand = .flash)
    (phase : s.lamps.flasher.state = .onPhase) (before : (s.chan ch).bulbOut = false)
    (low : 2 * current < s.nominal ch) : (sampleLamp ch current s).lamps.flasher.faultSeen = true := by
  unfold sampleLamp
  rw [decide_eq_true low]
  have written := setChan_chan s ch { s.chan ch with measured := current }
  refine setBulbOut_seen ?_ phase ?_
  · rw [written]
    exact demand
  · rw [written]
    exact before

/-! ### The samples of all lamps -/

section
variable (sort : Demand → Bool) (lamps : Vector Nat 12)

theorem Sampling.sampleIf (s : Part) (l : Fin 12) : Sampling s (sampleIf sort lamps s l) := by
  unfold Machine.sampleIf
  dsimp only
  split
  · exact .sampleLamp ..
  · exact .refl s

theorem sampleIf_other {l k : Fin 12} (s : Part) (other : l ≠ k) :
    (sampleIf sort lamps s l).chan (lampChan k) = s.chan (lampChan k) := by
  unfold sampleIf
  dsimp only
  split
  · exact sampleLamp_other _ _ fun same => other (lampChan_inj same)
  · rfl

theorem sampleIfs_other {k : Fin 12} (ls : List (Fin 12)) (s : Part) (apart : k ∉ ls) :
    (ls.foldl (sampleIf sort lamps) s).chan (lampChan k) = s.chan (lampChan k) := by
  induction ls generalizing s with
  | nil => rfl
  | cons l ls ih =>
    obtain ⟨first, rest⟩ := not_or.1 (mt List.mem_cons.2 apart)
    exact (ih _ rest).trans (sampleIf_other sort lamps s (Ne.symm first))

/-- The samples of all local lamps. -/
def sampleLamps (s : Part) : Part := localLamps.foldl (sampleIf sort lamps) s

theorem Sampling.sampleLamps (s : Part) : Sampling s (sampleLamps sort lamps s) := .foldl (.sampleIf sort lamps) _ s

/-- The turn of a lamp: it stands as before the samples, and no later sample changes it. -/
theorem sampleLamps_turn (s : Part) (l : Fin 12) : ∃ t, Sampling s t ∧ t.chan (lampChan l) = s.chan (lampChan l) ∧
    Sampling (sampleIf sort lamps t l) (sampleLamps sort lamps s) ∧
    (sampleLamps sort lamps s).chan (lampChan l) = (sampleIf sort lamps t l).chan (lampChan l) := by
  obtain ⟨pre, post, split, fresh⟩ := List.eq_append_cons_of_mem (List.mem_finRange l)
  have apart : l ∉ post := by
    have nodup := List.nodup_finRange 12
    rw [split] at nodup
    exact (List.nodup_cons.1 (List.nodup_append.1 nodup).2.1).1
  have folded : sampleLamps sort lamps s =
      post.foldl (sampleIf sort lamps) (sampleIf sort lamps (pre.foldl (sampleIf sort lamps) s) l) := by
    unfold sampleLamps localLamps
    rw [split, List.foldl_append, List.foldl_cons]
  rw [folded]
  exact ⟨_, .foldl (.sampleIf sort lamps) pre s, sampleIfs_other sort lamps pre s fresh,
    .foldl (.sampleIf sort lamps) post _, sampleIfs_other sort lamps post _ apart⟩

theorem lit_sampling {s t : Part} {l : Fin 12} (h : Sampling s t) (same : t.chan (lampChan l) = s.chan (lampChan l)) :
    t.lit (lampChan l) = s.lit (lampChan l) := by
  rw [lit_lampType (lampType_lampChan l), lit_lampType (lampType_lampChan l), same, h.phase]

theorem nominal_tables {s t : Part} (h : t.tables = s.tables) (ch : Fin 25) : t.nominal ch = s.nominal ch := by
  unfold Part.nominal Part.chanCfg Part.gaugeCfg
  rw [h]

/-- A lamp lit with a demand of the sort is measured and judged; one found out under FLASH is remembered. -/
theorem sampleLamps_measured {s : Part} {l : Fin 12} (lit : s.lit (lampChan l) = true)
    (taken : sort (s.chan (lampChan l)).demand = true) :
    (sampleLamps sort lamps s).chan (lampChan l) = s.sampled (lampChan l) (lamps.get l) ∧
    ((s.chan (lampChan l)).demand = .flash → (s.chan (lampChan l)).bulbOut = false →
      2 * lamps.get l < s.nominal (lampChan l) → (sampleLamps sort lamps s).lamps.flasher.faultSeen = true) := by
  obtain ⟨t, before, same, after, own⟩ := sampleLamps_turn sort lamps s l
  have nominal := nominal_tables before.tables (lampChan l)
  have sample : sampleIf sort lamps t l = sampleLamp (lampChan l) (lamps.get l) t := by
    refine if_pos ?_
    rw [lit_sampling before same, same, lit, taken]
    rfl
  rw [sample] at after own
  refine ⟨?_, fun demand good low => after.seen (sampleLamp_seen ?_ ?_ ?_ ?_)⟩
  · rw [own, sampleLamp_chan]
    unfold Part.sampled
    rw [same, nominal]
  · rw [same]
    exact demand
  · exact before.phase.trans (phase_of_lit (lampType_lampChan l) lit demand)
  · rw [same]
    exact good
  · rw [nominal]
    exact low

theorem sampleLamps_unmeasured {s : Part} {l : Fin 12}
    (left : ¬ (s.lit (lampChan l) = true ∧ sort (s.chan (lampChan l)).demand = true)) :
    (sampleLamps sort lamps s).chan (lampChan l) = s.chan (lampChan l) := by
  obtain ⟨t, before, same, -, own⟩ := sampleLamps_turn sort lamps s l
  have still : sampleIf sort lamps t l = t := by
    refine if_neg fun taken => left ?_
    rw [lit_sampling before same, same] at taken
    exact Bool.and_eq_true_iff.1 taken
  rw [own, still, same]

end

/-! ### The sample of the fan -/

/-- A RUNNING fan counts its low samples in a row (07: R126). -/
def Part.stallCounted (s : Part) (current : Nat) : Nat :=
  if s.fan.state ≠ .running then s.fan.stallCount
  else if current < s.tables.fan.stallThreshold then s.fan.stallCount + 1 else 0

theorem sampleFan_counts {current : Nat} {s : Part} (goes : s.stalls current = false) : sampleFan current s =
    (measureFan current s).setFan { s.fan with stallCount := s.stallCounted current } := by
  unfold sampleFan Part.stallCounted
  dsimp only
  by_cases running : s.fan.state = .running
  · rw [if_pos running, if_neg (not_not.2 running)]
    by_cases low : current < s.tables.fan.stallThreshold
    · have few : ¬ 20 ≤ s.fan.stallCount := fun many => by simp [Part.stalls, running, low, many] at goes
      rw [if_pos low, if_neg few, if_pos low]
    · rw [if_neg low, if_neg low]
  · rw [if_neg running, if_pos running]
    rfl

theorem fanChan_ne_lampChan (l : Fin 12) : fanChan ≠ lampChan l := fun same => by
  have number : 12 = l.val := congrArg Fin.val same
  omega

/-- The fan has been sampled and does not stall. -/
structure FanSampled (current : Nat) (s t : Part) : Prop where
  arbiter : t.arbiter = s.arbiter
  gauges : t.gauges = s.gauges
  lampNodes : t.channels.lampNodes = s.channels.lampNodes
  power : t.power = s.power
  lamp : ∀ l, t.chan (lampChan l) = s.chan (lampChan l)
  measured : (t.chan fanChan).measured = current
  fan : t.fan = { s.fan with stallCount := s.stallCounted current }

theorem sampleFan_sampled {current : Nat} {s : Part} (goes : s.stalls current = false) :
    FanSampled current s (sampleFan current s) := by
  have written := setChan_chan s fanChan { s.chan fanChan with measured := current }
  have others := fun l => setChan_ne s { s.chan fanChan with measured := current } (fanChan_ne_lampChan l)
  rw [sampleFan_counts goes]
  exact ⟨rfl, rfl, rfl, rfl, others, congrArg Chan.measured written, rfl⟩

/-! ### The commands -/

theorem exec_sampleClock {s : State} (lamps : Vector Nat 12) (fan : Nat) (on : s.part.on = true)
    (mode : s.part.mode = .running ∨ s.part.mode = .standing) : exec (.sampleClock lamps fan) s =
      s.nextPart (finish (sampleFan fan (sampleLamps (fun d => !d.flashing) lamps s.part))) := by
  refine congrArg s.nextPart (eventIf_eq (sampleStep lamps fan) on ?_)
  rcases mode with mode | mode <;> rw [mode] <;> rfl

/-- The sample of the phase is no longer due. -/
def endSample (s : Part) : Part := { s with channels := { s.channels with flashSample := none } }

theorem flashSampleStep_eq (lamps : Vector Nat 12) (s : Part) :
    flashSampleStep lamps s = endSample (sampleLamps (·.flashing) lamps s) := by
  unfold flashSampleStep endSample sampleLamps
  rfl

theorem exec_flashSample {s : State} (lamps : Vector Nat 12) (on : s.part.on = true)
    (due : s.part.channels.flashSample ≠ none) : exec (.flashSample lamps) s =
      s.nextPart (finish (endSample (sampleLamps (·.flashing) lamps s.part))) := by
  rw [← flashSampleStep_eq]
  exact congrArg s.nextPart (eventIf_eq (flashSampleStep lamps) on (Option.isSome_iff_ne_none.2 due))

theorem flashing_iff (d : Demand) : d.flashing = true ↔ d = .flash ∨ d = .telltale := by cases d <;> simp [Demand.flashing]

theorem unflashing_iff (d : Demand) : (!d.flashing) = true ↔ d ≠ .flash ∧ d ≠ .telltale := by
  cases d <;> simp [Demand.flashing]

/-- Settles O42, by the turn of each lamp among the samples. -/
theorem samplesJudgeBulbs : Obligations.SamplesJudgeBulbs := by
  intro s c lamps sort on deferral command u
  rcases command with ⟨fan, rfl, goes, mode, rfl⟩ | ⟨rfl, due, rfl⟩
  · have sampling := Sampling.sampleLamps (fun d => !d.flashing) lamps u
    have measures := fun l => sampleLamps_measured (fun d => !d.flashing) lamps (s := u) (l := l)
    have leaves := fun l => sampleLamps_unmeasured (fun d => !d.flashing) lamps (s := u) (l := l)
    rw [exec_sampleClock lamps fan on mode]
    generalize sampleLamps (fun d => !d.flashing) lamps u = v at sampling measures leaves ⊢
    have goes' : v.stalls fan = false := by
      unfold Part.stalls
      rw [sampling.fan, sampling.tables]
      exact goes
    have counted : v.stallCounted fan = u.stallCounted fan := by
      unfold Part.stallCounted
      rw [sampling.fan, sampling.tables]
    have sampled := sampleFan_sampled goes'
    have awake : (sampleFan fan v).power.deferral = false := by rw [sampled.power, sampling.power, deferral]
    have ended := (finish_outputs (sampleFan fan v) (.inl awake)).1
    have lamp := fun l => (ended.chan (lampChan l)).trans (sampled.lamp l)
    have measured := (congrArg Chan.measured (ended.chan fanChan)).trans sampled.measured
    obtain ⟨channels, arbiter, -, fanSame, gauges⟩ := ended
    refine ⟨_, rfl, fun l lit taken => ?_, fun l left => ?_, fun l lit taken demand => absurd demand taken.1,
      nofun, fun fan' same => ?_, arbiter.trans (sampled.arbiter.trans sampling.arbiter),
      gauges.trans (sampled.gauges.trans sampling.gauges), ?_⟩
    · exact (lamp l).trans (measures l lit ((unflashing_iff _).2 taken)).1
    · exact (lamp l).trans (leaves l fun both => left ⟨both.1, (unflashing_iff _).1 both.2⟩)
    · cases same
      refine ⟨measured, ?_⟩
      rw [fanSame, sampled.fan, counted, sampling.fan]
      rfl
    · rw [channels, sampled.lampNodes, sampling.lampNodes]
  · have sampling := Sampling.sampleLamps (·.flashing) lamps u
    have measures := fun l => sampleLamps_measured (·.flashing) lamps (s := u) (l := l)
    have leaves := fun l => sampleLamps_unmeasured (·.flashing) lamps (s := u) (l := l)
    rw [exec_flashSample lamps on due]
    generalize sampleLamps (·.flashing) lamps u = v at sampling measures leaves ⊢
    have awake : (endSample v).power.deferral = false := (congrArg Power.deferral sampling.power).trans deferral
    have ended := (finish_outputs (endSample v) (.inl awake)).1
    have lamp := fun l => ended.chan (lampChan l)
    obtain ⟨channels, arbiter, flasher, fanSame, gauges⟩ := ended
    refine ⟨_, rfl, fun l lit taken => ?_, fun l left => ?_, fun l lit taken demand good low => ?_,
      fun _ => ⟨?_, fanSame.trans sampling.fan⟩, nofun, arbiter.trans sampling.arbiter,
      gauges.trans sampling.gauges, ?_⟩
    · exact (lamp l).trans (measures l lit ((flashing_iff _).2 taken)).1
    · exact (lamp l).trans (leaves l fun both => left ⟨both.1, (flashing_iff _).1 both.2⟩)
    · rw [flasher]
      exact (measures l lit ((flashing_iff _).2 taken)).2 demand good low
    · rw [channels]
      rfl
    · rw [channels]
      exact sampling.lampNodes

end Sys2Proof.Machine
end

section
/-! Faults of the lamp-type channels (04: R69, R71): the overload timer, and what a fault makes of its channel
(obligation O43). -/

namespace Sys2Proof.Machine

/-! ### A channel in FAULT -/

/-- The live fields of a channel that goes to FAULT (04: R69, R71). -/
def Chan.faulted (c : Chan) (kind : FaultKind) (latched : Bool) (retry : Option Nat) : Chan :=
  { c with state := .fault, fault := kind, latched := latched, retryTimer := retry, bulbOut := false, measured := 0
           overload := none }

/-- A channel in FAULT with these fields, its claim withdrawn and its grant given back. -/
structure Part.faulted (s : Part) (ch : Fin 25) (c : Chan) : Prop where
  state : c.state = .fault
  chan : s.chan ch = c
  grant : s.grant ch = 0
  queued : s.queued ch = []

/-- What spares the channel leaves it in FAULT. -/
theorem Part.faulted.spares {s t : Part} {ch : Fin 25} {c : Chan} (h : s.faulted ch c) (timer : c.overload = none)
    (k : Spares ch s t) : t.faulted ch c := by
  obtain ⟨queued, grant, chan⟩ := k.idle h.queued
  have reset : (t.chan ch).overload = none := k.timer (by rw [h.chan, timer])
  refine ⟨h.state, ?_, grant.trans h.grant, queued⟩
  rw [h.chan] at chan
  exact chan_of_untimed chan (reset.trans timer.symm)

theorem Part.faulted.outputs {s t : Part} {ch : Fin 25} {c : Chan} (h : s.faulted ch c) (k : SameOutputs s t) :
    t.faulted ch c :=
  ⟨h.state, (k.chan ch).trans h.chan, (k.grant ch).trans h.grant, (k.leaves ch).queued.trans h.queued⟩

theorem Part.faulted.claimOf {s : Part} {ch : Fin 25} {c : Chan} (h : s.faulted ch c) : s.claimOf ch = none :=
  (claimOf_none_iff s ch).2 h.queued

theorem Part.faulted.unlit {s : Part} {ch : Fin 25} {c : Chan} (h : s.faulted ch c) (lamp : lampType ch = true) :
    s.lit ch = false := by
  refine unlit_lampType lamp ?_
  rw [h.chan, h.state]
  exact ChanState.noConfusion

theorem faultChan_faulted (ch : Fin 25) (kind : FaultKind) (latched : Bool) (retry : Option Nat) (s : Part) :
    (faultChan ch kind latched retry s).faulted ch ((s.chan ch).faulted kind latched retry) := by
  let written := s.setChan ch ((s.chan ch).faulted kind latched retry)
  have vacated : (written.setArbiter (written.arbiter.vacate ch)).faulted ch ((s.chan ch).faulted kind latched retry) :=
    ⟨rfl, setChan_chan .., (vacate_grants ..).trans (if_pos rfl), (unclaim_queued ..).trans (if_pos rfl)⟩
  exact vacated.spares rfl ((Leaves.settleLights _).spares.trans (.passAfter s _))

/-- An overload latches at the fourth since the channel was last OFF (04: R69). -/
theorem overloadChan_faulted (ch : Fin 25) (s : Part) : (overloadChan ch s).faulted ch
    ((s.chan ch).faulted .overload (decide (3 ≤ (s.chan ch).retry))
      (if (s.chan ch).retry < 3 then some 1000 else none)) := by
  unfold overloadChan
  by_cases early : (s.chan ch).retry < 3
  · rw [if_pos early, if_pos early, decide_eq_false (Nat.not_le.2 early)]
    exact faultChan_faulted ..
  · rw [if_neg early, if_neg early, decide_eq_true (Nat.le_of_not_lt early)]
    exact faultChan_faulted ..

theorem shortChan_faulted (ch : Fin 25) (s : Part) :
    (shortChan ch s).faulted ch ((s.chan ch).faulted .short true none) := faultChan_faulted ..

/-- A fault keeps the part from DORMANT entry, and the end of the event leaves it. -/
theorem finish_faulted {s : Part} {ch : Fin 25} {c : Chan} (h : s.faulted ch c) (lamp : lampType ch = true) :
    (finish s).faulted ch c := by
  refine h.outputs (finish_used lamp ?_)
  rw [h.chan, h.state]
  exact ChanState.noConfusion

/-! ### The overload timer -/

theorem aboveLampLevel_iff (nominal milliamps : Nat) :
    aboveLampLevel nominal milliamps = true ↔ 3 * (100 * nominal) < 2 * milliamps := decide_eq_true_iff

/-- The overload timer of a lamp at a current (04: R69). -/
theorem crossLevel_eq (ch : Fin 25) (milliamps : Nat) (s : Part) : crossLevel ch milliamps s =
    s.setChan ch { s.chan ch with overload :=
      if 3 * (100 * s.nominal ch) < 2 * milliamps then some ((s.chan ch).overload.getD 50) else none } := by
  unfold crossLevel
  simp only [aboveLampLevel_iff]

/-! ### The commands -/

theorem exec_overloadLevelCrossing {s : State} {l : Fin 12} (milliamps : Nat) (on : s.part.on = true)
    (lit : s.part.lit (lampChan l) = true) : exec (.overloadLevelCrossing l milliamps) s =
      s.nextPart (finish (crossLevel (lampChan l) milliamps s.part)) :=
  congrArg s.nextPart (eventIf_eq _ on lit)

theorem exec_overload {s : State} {l : Fin 12} (on : s.part.on = true) (lit : s.part.lit (lampChan l) = true)
    (runs : (s.part.chan (lampChan l)).overload ≠ none) : exec (.overload l) s =
      s.nextPart (finish (overloadChan (lampChan l) s.part)) :=
  congrArg s.nextPart (eventIf_eq _ on (Bool.and_eq_true_iff.2 ⟨lit, Option.isSome_iff_ne_none.2 runs⟩))

theorem exec_shortTrip {s : State} {l : Fin 12} (on : s.part.on = true) (lit : s.part.lit (lampChan l) = true) :
    exec (.shortTrip l) s = s.nextPart (finish (shortChan (lampChan l) s.part)) :=
  congrArg s.nextPart (eventIf_eq _ on lit)

/-- Settles O43, by the part that the crossing and the faults leave to the end of the event. -/
theorem overloadsAndShortsFault : Obligations.OverloadsAndShortsFault := by
  intro s l on lit u ch c
  have lamp := lampType_lampChan l
  refine ⟨fun mA => ?_, fun runs => ?_, ?_⟩
  · refine ⟨_, exec_overloadLevelCrossing mA on lit, ?_⟩
    rw [crossLevel_eq]
    let crossed : Chan := { c with overload :=
      if 3 * (100 * u.nominal ch) < 2 * mA then some (c.overload.getD 50) else none }
    have written := setChan_chan u ch crossed
    have ended : SameOutputs (u.setChan ch crossed) (finish (u.setChan ch crossed)) := by
      refine finish_used lamp ?_
      rw [written]
      show (u.chan ch).state ≠ .off
      rw [state_of_lit lamp lit]
      exact ChanState.noConfusion
    have own : (finish (u.setChan ch crossed)).chan ch = crossed := (ended.chan ch).trans written
    refine ⟨own, ?_⟩
    rw [own]
    exact ended
  · have fault := finish_faulted (overloadChan_faulted ch u) lamp
    exact ⟨_, exec_overload on lit runs, fault.chan, fault.unlit lamp, fault.grant, fault.claimOf⟩
  · have fault := finish_faulted (shortChan_faulted ch u) lamp
    exact ⟨_, exec_shortTrip on lit, fault.chan, fault.unlit lamp, fault.grant, fault.claimOf⟩

end Sys2Proof.Machine
end

section
/-! LAMP_STATUS at the channel manager (04: R77): the statuses act on the node's lit channels one after the other
(obligation O31). -/

namespace Sys2Proof.Machine

/-! ### What a fault elsewhere leaves -/

/-- A lamp-node record apart from its masks and its refresh timer. -/
def LampNode.report (r : LampNode) : Nat × Bool × Option (Byte × Byte) × Nat := (r.node, r.reachable, r.status, r.supply)

/-- Power and what is known of the lamp nodes stay, and an ON phase goes on. -/
structure Reported (s t : Part) : Prop where
  power : t.power = s.power
  reports : t.channels.lampNodes.map LampNode.report = s.channels.lampNodes.map LampNode.report
  phase : s.lamps.flasher.state = .onPhase → t.lamps.flasher.state = .onPhase

theorem Reported.refl (s : Part) : Reported s s := ⟨rfl, rfl, id⟩

theorem Reported.trans {s t u : Part} (h : Reported s t) (k : Reported t u) : Reported s u where
  power := k.power.trans h.power
  reports := k.reports.trans h.reports
  phase := k.phase ∘ h.phase

theorem Reported.foldl {α : Type} {f : Part → α → Part} (hf : ∀ s x, Reported s (f s x)) (xs : List α) (s : Part) :
    Reported s (xs.foldl f s) := by
  induction xs generalizing s with
  | nil => exact .refl s
  | cons x xs ih => exact (hf s x).trans (ih _)

theorem Reported.ite {s a b : Part} {c : Prop} [Decidable c] (ha : Reported s a) (hb : Reported s b) :
    Reported s (if c then a else b) := by
  split
  · exact ha
  · exact hb

theorem Reported.of_eq {s t : Part} (power : t.power = s.power)
    (records : t.channels.lampNodes = s.channels.lampNodes) (lamps : t.lamps = s.lamps) : Reported s t :=
  ⟨power, by rw [records], by rw [lamps]; exact id⟩

theorem Reported.setChan (s : Part) (ch : Fin 25) (c : Chan) : Reported s (s.setChan ch c) := .of_eq rfl rfl rfl

theorem Reported.setArbiter (s : Part) (a : Arbiter) : Reported s (s.setArbiter a) := .of_eq rfl rfl rfl

theorem Reported.of_flags {s t : Part} (h : FlagsOnly s t) : Reported s t := by
  obtain ⟨⟨channels, -, lamps, -⟩, power, -⟩ := h
  exact .of_eq power (by rw [channels]) lamps

theorem Reported.of_sampling {s t : Part} (h : Sampling s t) : Reported s t :=
  ⟨h.power, by rw [h.lampNodes], by rw [h.phase]; exact id⟩

theorem Reported.setLampNodes (s : Part) (f : LampNode → LampNode) (h : ∀ r, (f r).report = r.report) :
    Reported s (s.setLampNodes (s.channels.lampNodes.map f)) := by
  refine ⟨rfl, ?_, id⟩
  show (s.channels.lampNodes.map f).map LampNode.report = _
  rw [List.map_map]
  exact List.map_congr_left fun r _ => h r

theorem Reported.commandNode (s : Part) (n : Nat) : Reported s (commandNode s n) := by
  unfold Machine.commandNode
  split
  · exact .refl s
  · refine .ite (.refl s) ((Reported.of_flags (.originate ..)).trans (.setLampNodes _ _ fun r => ?_))
    split <;> rfl

theorem Reported.flashStart (s : Part) : Reported s (flashStart s) := by
  unfold Machine.flashStart
  split
  · exact ⟨rfl, rfl, fun _ => rfl⟩
  · exact .refl s

theorem Reported.settleLights (s : Part) : Reported s (settleLights s) := by
  have dropped : Reported (Machine.flashStart s) (dropTimers (Machine.flashStart s)) := .of_eq rfl rfl rfl
  exact ((Reported.flashStart s).trans dropped).trans
    ((Reported.setLampNodes _ (·.shown _) fun _ => rfl).trans (.foldl .commandNode _ _))

theorem Reported.handGrant (ch : Fin 25) (s : Part) : Reported s (handGrant ch s) := by
  have lamp : ∀ c, Reported s (Machine.settleLights (s.setChan ch c)) := fun c =>
    (Reported.setChan s ch c).trans (.settleLights _)
  unfold Machine.handGrant
  split
  · exact lamp _
  · exact lamp _
  · exact .of_eq rfl rfl rfl
  · exact .ite (.of_eq rfl rfl rfl) (.refl s)

theorem Reported.grantHead (c : Claim) (cs : List Claim) (s : Part) : Reported s (grantHead c cs s) :=
  ((Reported.setArbiter s _).trans (.setArbiter _ _)).trans (.handGrant _ _)

theorem Reported.grantHeads (n : Nat) (s : Part) : Reported s (grantHeads n s) := by
  induction n generalizing s with
  | zero => exact .refl s
  | succ n ih =>
    unfold Machine.grantHeads
    split
    · exact .refl s
    · exact .ite ((Reported.grantHead _ _ s).trans (ih _)) (.refl s)

theorem Reported.faultChan (ch : Fin 25) (kind : FaultKind) (latched : Bool) (retry : Option Nat) (s : Part) :
    Reported s (faultChan ch kind latched retry s) := by
  have settled : ∀ c a, Reported s (Machine.settleLights ((s.setChan ch c).setArbiter a)) := fun c a =>
    ((Reported.setChan s ch c).trans (.setArbiter _ a)).trans (.settleLights _)
  exact .ite (settled _ _) ((settled _ _).trans (.grantHeads _ _))

/-! ### The status of one channel -/

section
variable (b : Byte × Byte)

theorem statusChan_cases (s : Part) (k : Fin 25) : (∃ out, statusChan b s k = setBulbOut k out s) ∨
    statusChan b s k = syncConds (shortChan k s) ∨ statusChan b s k = s := by
  unfold statusChan
  split
  · exact .inl ⟨false, rfl⟩
  · exact .inl ⟨true, rfl⟩
  · exact .inr (.inl rfl)
  · exact .inr (.inr rfl)

/-- LIT_OK is 1 and OPEN is 2. -/
theorem statusChan_judges {s : Part} {k : Fin 25} {out : Bool}
    (status : outputStatus b (s.chanCfg k).output = if out then 2 else 1) :
    statusChan b s k = setBulbOut k out s := by
  unfold statusChan
  rw [status]
  cases out <;> rfl

theorem statusChan_shorts {s : Part} {k : Fin 25} (status : outputStatus b (s.chanCfg k).output = 3) :
    statusChan b s k = syncConds (shortChan k s) := by
  unfold statusChan
  rw [status]
  rfl

theorem Reaction.statusChan (s : Part) (k : Fin 25) : Reaction s (statusChan b s k) := by
  rcases statusChan_cases b s k with ⟨out, eq⟩ | eq | eq <;> rw [eq]
  · exact .setBulbOut ..
  · exact (Reaction.shortChan k s).trans (.syncConds _)
  · exact .refl s

theorem Reported.statusChan (s : Part) (k : Fin 25) : Reported s (statusChan b s k) := by
  rcases statusChan_cases b s k with ⟨out, eq⟩ | eq | eq <;> rw [eq]
  · exact .of_sampling (.setBulbOut ..)
  · exact (Reported.faultChan ..).trans (.of_flags (.syncConds _))
  · exact .refl s

theorem Leaves.setBulbOut {k ch : Fin 25} (out : Bool) (s : Part) (other : k ≠ ch) :
    Leaves ch s (setBulbOut k out s) := by
  have own : (Machine.setBulbOut k out s).chan ch = s.chan ch := setBulbOut_other out s other
  obtain ⟨arbiter, gauges, -⟩ := Sampling.setBulbOut k out s
  exact ⟨by unfold Part.queued; rw [arbiter], by unfold Part.grant; rw [arbiter], by rw [own], by rw [own]; exact id,
    fun g _ => by unfold Part.gauge; rw [gauges]⟩

/-- Up to the granting pass, the fault of another channel leaves the channel. -/
theorem Leaves.fault {k ch : Fin 25} (s : Part) (c : Chan) (other : k ≠ ch) : Leaves ch s
    (Machine.settleLights ((s.setChan k c).setArbiter ((s.setChan k c).arbiter.vacate k))) :=
  ((Leaves.setChan s c other).trans (.vacate _ other)).trans (.settleLights _)

theorem Spares.shortChan {k ch : Fin 25} (s : Part) (other : k ≠ ch) : Spares ch s (shortChan k s) :=
  (Leaves.fault s _ other).spares.trans (.passAfter s _)

theorem Spares.statusChan {k ch : Fin 25} (s : Part) (other : k ≠ ch) : Spares ch s (statusChan b s k) := by
  rcases statusChan_cases b s k with ⟨out, eq⟩ | eq | eq <;> rw [eq]
  · exact (Leaves.setBulbOut out s other).spares
  · exact (Spares.shortChan s other).trans ((FlagsOnly.syncConds _).outputs.leaves ch).spares
  · exact .refl ch s

/-! ### A channel that is ON -/

/-- A channel that is ON stays as it is, but for its overload timer, whatever is granted. -/
theorem grantHeads_on {ch : Fin 25} (remote : kindOf ch = .remote) (n : Nat) {s : Part}
    (on : (s.chan ch).state = .on) : ((grantHeads n s).chan ch).untimed = (s.chan ch).untimed := by
  induction n generalizing s with
  | zero => rfl
  | succ n ih =>
    unfold grantHeads
    split
    · rfl
    · rename_i c cs claims
      split
      · have head : ((grantHead c cs s).chan ch).untimed = (s.chan ch).untimed := by
          by_cases own : c.chan = ch
          · subst own
            rw [(grantHead_granted c cs s).lit remote, ← on]
            rfl
          · exact ((Leaves.popClaim s claims own).trans (.giveGrant _ c.amount own)).chan
        exact (ih ((untimed_state head).trans on)).trans head
      · rfl

theorem shortChan_on {k ch : Fin 25} (remote : kindOf ch = .remote) {s : Part} (on : (s.chan ch).state = .on)
    (other : k ≠ ch) : ((shortChan k s).chan ch).untimed = (s.chan ch).untimed := by
  have settled := (Leaves.fault s ((s.chan k).faulted .short true none) other).chan
  unfold shortChan faultChan passAfter
  dsimp only
  split
  · exact settled
  · exact (grantHeads_on remote _ (by rw [← on]; exact untimed_state settled)).trans settled

/-- The status of another channel leaves a channel that is ON. -/
theorem statusChan_on {k ch : Fin 25} (remote : kindOf ch = .remote) {s : Part} (on : (s.chan ch).state = .on)
    (other : k ≠ ch) : ((statusChan b s k).chan ch).untimed = (s.chan ch).untimed := by
  rcases statusChan_cases b s k with ⟨out, eq⟩ | eq | eq <;> rw [eq]
  · rw [setBulbOut_other out s other]
  · rw [(FlagsOnly.syncConds _).outputs.chan]
    exact shortChan_on remote on other

theorem statusChans_on {ch : Fin 25} (remote : kindOf ch = .remote) (ks : List (Fin 25)) {s : Part}
    (on : (s.chan ch).state = .on) (apart : ch ∉ ks) :
    ((ks.foldl (statusChan b) s).chan ch).untimed = (s.chan ch).untimed := by
  induction ks generalizing s with
  | nil => rfl
  | cons k ks ih =>
    obtain ⟨first, rest⟩ := not_or.1 (mt List.mem_cons.2 apart)
    have head := statusChan_on b remote on (Ne.symm first)
    exact (ih ((untimed_state head).trans on) rest).trans head

/-! ### The statuses of the node -/

theorem chanCfg_still {s t : Part} (h : Undisturbed s t) (ch : Fin 25) : t.chanCfg ch = s.chanCfg ch := by
  unfold Part.chanCfg
  rw [h.tables]

/-- A fault resets the overload timer. -/
theorem faulted_untimed {c d : Chan} (h : c.untimed = d.untimed) (kind : FaultKind) (latched : Bool)
    (retry : Option Nat) : c.faulted kind latched retry = d.faulted kind latched retry := by
  calc c.faulted kind latched retry = c.untimed.faulted kind latched retry := rfl
    _ = d.untimed.faulted kind latched retry := by rw [h]
    _ = d.faulted kind latched retry := rfl

/-- The turn of a lit channel among the statuses: it is ON as before, and the statuses after its own are of others. -/
theorem statusChans_turn {ch : Fin 25} (remote : kindOf ch = .remote) {ks : List (Fin 25)} (nodup : ks.Nodup)
    (mem : ch ∈ ks) {s : Part} (on : (s.chan ch).state = .on) : ∃ (t : Part) (post : List (Fin 25)),
      ks.foldl (statusChan b) s = post.foldl (statusChan b) (statusChan b t ch) ∧ ch ∉ post ∧
      (t.chan ch).untimed = (s.chan ch).untimed ∧ Undisturbed s t ∧ Reported s t := by
  obtain ⟨pre, post, split, fresh⟩ := List.eq_append_cons_of_mem mem
  have apart : ch ∉ post := by
    rw [split] at nodup
    exact (List.nodup_cons.1 (List.nodup_append.1 nodup).2.1).1
  refine ⟨pre.foldl (statusChan b) s, post, ?_, apart, statusChans_on b remote pre on fresh,
    (Reaction.foldl (.statusChan b) pre s).still, .foldl (.statusChan b) pre s⟩
  rw [split, List.foldl_append, List.foldl_cons]

/-- A status LIT_OK or OPEN judges the bulb of its channel, which stays lit. -/
theorem statusChans_judged {ch : Fin 25} (remote : kindOf ch = .remote) {ks : List (Fin 25)} (nodup : ks.Nodup)
    (mem : ch ∈ ks) {s : Part} (lit : s.lit ch = true) (lamp : lampType ch = true) (out : Bool)
    (status : outputStatus b (s.chanCfg ch).output = if out then 2 else 1) :
    (ks.foldl (statusChan b) s).lit ch = true ∧ ((ks.foldl (statusChan b) s).chan ch).bulbOut = out := by
  have on := state_of_lit lamp lit
  obtain ⟨t, post, turn, apart, same, still, before⟩ := statusChans_turn b remote nodup mem on
  have own : statusChan b t ch = setBulbOut ch out t := statusChan_judges b (by rw [chanCfg_still still]; exact status)
  have chan := setBulbOut_chan ch out t
  have state : ((setBulbOut ch out t).chan ch).state = .on := by
    rw [chan]
    exact (untimed_state same).trans on
  have after := statusChans_on b remote post state apart
  have rest : Reported (setBulbOut ch out t) (post.foldl (statusChan b) (setBulbOut ch out t)) :=
    .foldl (.statusChan b) post _
  rw [turn, own]
  refine ⟨lit_of_lit lamp lit ?_ ((untimed_state after).trans state) fun phase => ?_, ?_⟩
  · rw [untimed_demand after, chan]
    exact untimed_demand (c := t.chan ch) same
  · exact rest.phase ((Reported.of_sampling (.setBulbOut ch out t)).phase (before.phase phase))
  · rw [untimed_field Chan.bulbOut (fun _ => rfl) after, chan]

/-- A status SHORT takes its channel to FAULT. -/
theorem statusChans_faulted {ch : Fin 25} (remote : kindOf ch = .remote) {ks : List (Fin 25)} (nodup : ks.Nodup)
    (mem : ch ∈ ks) {s : Part} (on : (s.chan ch).state = .on)
    (status : outputStatus b (s.chanCfg ch).output = 3) :
    (ks.foldl (statusChan b) s).faulted ch ((s.chan ch).faulted .short true none) := by
  obtain ⟨t, post, turn, apart, same, still, -⟩ := statusChans_turn b remote nodup mem on
  have own : statusChan b t ch = syncConds (shortChan ch t) :=
    statusChan_shorts b (by rw [chanCfg_still still]; exact status)
  have shorted := (shortChan_faulted ch t).outputs (FlagsOnly.syncConds _).outputs
  rw [faulted_untimed same] at shorted
  rw [turn, own]
  exact shorted.spares rfl (.foldl post (fun k mem t => .statusChan b t (ne_of_mem_of_not_mem mem apart)) _)

end

/-! ### The frame -/

/-- A record that takes a report (04: R77). -/
def LampNode.told (b : Byte × Byte) (supply : Nat) (r : LampNode) : LampNode :=
  { r with status := some b, supply := supply }

/-- The lit channels of a lamp node. -/
def Part.litOf (s : Part) (n : Nat) : List (Fin 25) := (s.remotesOf n).filter s.lit

theorem lampReport_ignored {n : Nat} {bs : List Byte} {s : Part} (h : bs.length < 4 ∨ s.lampNode n = none) :
    lampReport n bs s = s := if_pos (h.imp_right fun none => by rw [none]; rfl)

theorem lampReport_taken {n : Nat} {bs : List Byte} {s : Part} {r : LampNode} (long : 4 ≤ bs.length)
    (record : s.lampNode n = some r) : lampReport n bs s = (s.litOf n).foldl
      (statusChan (bs.getD 0 0, bs.getD 1 0)) (s.onLampNode n (.told (bs.getD 0 0, bs.getD 1 0) (at2 bs 2))) := by
  unfold lampReport
  rw [if_neg (by rw [record]; simpa using long)]
  rfl

theorem Reaction.lampReport (n : Nat) (bs : List Byte) (s : Part) : Reaction s (lampReport n bs s) :=
  .ite (.refl s) ((Reaction.onLampNode s n _).trans (.foldl (.statusChan _) _ _))

theorem litOf_nodup (s : Part) (n : Nat) : (s.litOf n).Nodup := (remotesOf_nodup s n).filter _

theorem lampReport_power (n : Nat) (bs : List Byte) (s : Part) : (lampReport n bs s).power = s.power := by
  unfold lampReport
  split
  · rfl
  · exact (Reported.foldl (.statusChan _) _ _).power

/-- The record of the node after the report. -/
theorem lampReport_record {n : Nat} {bs : List Byte} {s : Part} {r : LampNode} (long : 4 ≤ bs.length)
    (record : s.lampNode n = some r) : ∃ r', (lampReport n bs s).lampNode n = some r' ∧
      r'.report = (r.told (bs.getD 0 0, bs.getD 1 0) (at2 bs 2)).report := by
  rw [lampReport_taken long record]
  have told := onLampNode_lampNode s n (.told (bs.getD 0 0, bs.getD 1 0) (at2 bs 2)) fun _ => rfl
  have kept : ∀ {t u : Part}, Reported t u → (u.lampNode n).map LampNode.report = (t.lampNode n).map LampNode.report :=
    fun {t u} h => by
      have found : ∀ v : Part, (v.lampNode n).map LampNode.report =
          (v.channels.lampNodes.map LampNode.report).find? (·.1 == n) := fun v => by
        unfold Part.lampNode
        rw [List.find?_map]
        rfl
      rw [found, found, h.reports]
  have after := kept (.foldl (.statusChan (bs.getD 0 0, bs.getD 1 0)) (s.litOf n)
    (s.onLampNode n (.told (bs.getD 0 0, bs.getD 1 0) (at2 bs 2))))
  rw [told, record] at after
  exact Option.map_eq_some_iff.1 after

/-- A LAMP_STATUS frame goes to the channel manager (02: R34). -/
theorem exec_lampStatus {s : State} {e : RxEntry} (awake : s.part.awake = true) (next : s.part.nextEntry = some e)
    (kind : e.kind = 0x32) (dest : e.dest ≠ 0) : exec .lampStatus s =
      s.nextPart (finish (lampReport e.source e.payload (takeEntry s.part))) := by
  have consumer : e.consumer = .channelManager := by
    simp [RxEntry.consumer, kind, dest, kindMgRequest, kindSwitchState, kindSenderReport, kindLampStatus]
  exact congrArg s.nextPart (dispatchIf_eq _ awake next (beq_iff_eq.2 consumer))

/-- Settles O31, by the turn of each lit channel among the statuses. -/
theorem lampStatusReachesChannels : Obligations.LampStatusReachesChannels := by
  intro s e awake next kind dest deferral u b
  obtain ⟨-, tables, -, power, -, taken⟩ := takeEntry_ready u
  let w := takeEntry u
  have ended : SameOutputs (lampReport e.source e.payload w) (finish (lampReport e.source e.payload w)) := by
    refine (finish_outputs _ (.inl ?_)).1
    rw [lampReport_power, power]
    exact deferral
  refine ⟨_, exec_lampStatus awake next kind dest, fun ignored => ?_, fun long r record => ⟨?_, ?_⟩,
    (finish_still _).trans (Reaction.lampReport e.source e.payload w).still⟩
  · rw [lampReport_ignored (ignored.imp_right fun none => (taken.lampNode _).trans none)] at ended ⊢
    exact taken.trans ended
  · obtain ⟨r', found, report⟩ := lampReport_record long ((taken.lampNode _).trans record)
    exact ⟨r', (ended.lampNode _).trans found, congrArg (·.2.1) report, congrArg (·.2.2.1) report,
      congrArg (·.2.2.2) report⟩
  · intro ch far fed node lit k st
    have remote := kindOf_remote far
    have lamp := lampType_remote far
    have cfg : w.chanCfg ch = u.chanCfg ch := by unfold Part.chanCfg; rw [tables]
    have mem : ch ∈ w.litOf e.source := by
      refine List.mem_filter.2 ⟨mem_remotesOf.2 ⟨far, ?_, ?_⟩, (taken.lit ch).trans lit⟩
      · rw [cfg]; exact fed
      · rw [cfg]; exact node
    have status : outputStatus (b 0, b 1) (w.chanCfg ch).output = st := by
      rw [cfg]
      exact congrArg (· / 4 ^ (k % 4) % 4) (apply_ite BitVec.toNat (k < 4) (b 0) (b 1)).symm
    have nodup := litOf_nodup w e.source
    have lit' : w.lit ch = true := (taken.lit ch).trans lit
    rw [lampReport_taken long ((taken.lampNode _).trans record)] at ended ⊢
    have judged := fun out known => statusChans_judged (b 0, b 1) remote nodup mem
      (s := w.onLampNode e.source (.told (b 0, b 1) (at2 e.payload 2))) lit' lamp out known
    have faulted := fun known => statusChans_faulted (b 0, b 1) remote nodup mem
      (s := w.onLampNode e.source (.told (b 0, b 1) (at2 e.payload 2))) (state_of_lit lamp lit') known
    refine ⟨fun ok => ?_, fun open_ => ?_, fun short => ?_⟩
    · obtain ⟨on, good⟩ := judged false (status.trans ok)
      exact ⟨(ended.lit ch).trans on, (congrArg Chan.bulbOut (ended.chan ch)).trans good⟩
    · obtain ⟨on, out⟩ := judged true (status.trans open_)
      exact ⟨(ended.lit ch).trans on, (congrArg Chan.bulbOut (ended.chan ch)).trans out⟩
    · have fault := (faulted (status.trans short)).outputs ended
      refine ⟨fault.unlit lamp, fault.grant, fault.chan.trans ?_⟩
      exact congrArg (Chan.faulted · .short true none) (taken.chan ch)

end Sys2Proof.Machine
end

section
/-! The end of a retry timer (04: R63, R70, R73, R76; 05: R85): a lamp-type channel claims again (obligation O44). -/

namespace Sys2Proof.Machine

/-! ### A lamp-type channel with its claim made -/

/-- A channel that has claimed, with these fields but state and overload timer: ON with its grant, or WAITING with its
claim (04: R63, R64). `Part.pursues` says it of the channels of lamp nodes and of their demand alone. -/
inductive Part.claimed (s : Part) (c : Claim) (d : Chan) : Prop where
  | granted (chan : (s.chan c.chan).untimed = { d.untimed with state := .on }) (grant : s.grant c.chan = c.amount)
      (queued : s.queued c.chan = [])
  | waits (chan : (s.chan c.chan).untimed = { d.untimed with state := .waiting }) (grant : s.grant c.chan = 0)
      (queued : s.queued c.chan = [c])

/-- A claim changes state and overload timer alone. -/
theorem Part.claimed.chan {s : Part} {c : Claim} {d : Chan} (h : s.claimed c d) :
    ∃ st, (s.chan c.chan).untimed = { d.untimed with state := st } := by
  cases h with
  | granted chan | waits chan => exact ⟨_, chan⟩

theorem handGrant_lamp {ch : Fin 25} (lamp : lampType ch = true) (s : Part) :
    handGrant ch s = settleLights (s.setChan ch { s.chan ch with state := .on }) := by
  unfold handGrant
  rcases kindOf_lampType lamp with kind | kind <;> rw [kind]

theorem handGrant_chan {ch : Fin 25} (lamp : lampType ch = true) (s : Part) :
    ((handGrant ch s).chan ch).untimed = { (s.chan ch).untimed with state := .on } := by
  have written := setChan_chan s ch { s.chan ch with state := .on }
  have lit : Leaves ch (s.setChan ch { s.chan ch with state := .on }) _ := .settleLights _
  rw [handGrant_lamp lamp, lit.chan, written]
  rfl

/-- A grant made to a channel without a grant and without another claim. -/
theorem giveGrant_claimed {s : Part} {c : Claim} {d : Chan} (lamp : lampType c.chan = true)
    (chan : ∃ st, (s.chan c.chan).untimed = { d.untimed with state := st }) (zero : s.grant c.chan = 0)
    (none : s.queued c.chan = []) : (giveGrant c.chan c.amount s).claimed c d := by
  obtain ⟨st, chan⟩ := chan
  have arbiter : (giveGrant c.chan c.amount s).arbiter = s.arbiter.give c.chan c.amount := handGrant_arbiter ..
  refine .granted ((handGrant_chan lamp _).trans ?_) ?_ ?_
  · exact congrArg (fun e : Chan => { e with state := .on }) chan
  · unfold Part.grant at zero ⊢
    rw [arbiter]
    refine (put_get_same ..).trans ?_
    rw [zero, Nat.zero_add]
  · unfold Part.queued at none ⊢
    rw [arbiter]
    exact none

theorem Part.claimed.leaves {s t : Part} {c : Claim} {d : Chan} (h : s.claimed c d) (k : Leaves c.chan s t) :
    t.claimed c d := by
  cases h with
  | granted chan grant queued =>
    exact .granted (k.chan.trans chan) (k.grant.trans grant) (k.queued.trans queued)
  | waits chan grant queued => exact .waits (k.chan.trans chan) (k.grant.trans grant) (k.queued.trans queued)

/-- A granting step leaves a channel that has claimed on its way. -/
theorem Part.claimed.grantHead {s : Part} {c : Claim} {d : Chan} (h : s.claimed c d) (lamp : lampType c.chan = true)
    {c' : Claim} {cs : List Claim} (claims : s.arbiter.claims = c' :: cs) : (grantHead c' cs s).claimed c d := by
  by_cases own : c'.chan = c.chan
  · have queue : s.queued c.chan = c' :: cs.filter (·.chan == c.chan) := by
      unfold Part.queued
      rw [claims]
      exact List.filter_cons_of_pos (by simpa using own)
    cases h with
    | granted chan grant queued => rw [queue] at queued; cases queued
    | waits chan grant queued =>
      rw [queue] at queued
      obtain ⟨rfl, rest⟩ := List.cons.inj queued
      exact giveGrant_claimed lamp ⟨_, chan⟩ grant rest
  · exact h.leaves ((Leaves.popClaim s claims own).trans (.giveGrant _ c'.amount own))

theorem Part.claimed.grantHeads {c : Claim} {d : Chan} (lamp : lampType c.chan = true) (n : Nat) {s : Part}
    (h : s.claimed c d) : (grantHeads n s).claimed c d := by
  induction n generalizing s with
  | zero => exact h
  | succ n ih =>
    unfold Machine.grantHeads
    split
    · exact h
    · rename_i c' cs claims
      split
      · exact ih (h.grantHead lamp claims)
      · exact h

/-! ### The claim -/

section
variable {s : Part} {ch : Fin 25} (lamp : lampType ch = true) (state : (s.chan ch).state = .waiting)
  (none : s.queued ch = [])
include lamp state none

theorem makeClaim_claimed (zero : s.grant ch = 0) :
    (makeClaim ch (s.nominal ch) s).claimed (s.freshClaim ch) (s.chan ch) := by
  unfold makeClaim
  rw [waits_eq_false none]
  refine (if_neg Bool.false_ne_true).symm ▸ ?_
  split
  · exact giveGrant_claimed (c := s.freshClaim ch) lamp ⟨(s.chan ch).state, rfl⟩ zero none
  · refine Part.claimed.grantHeads (c := s.freshClaim ch) lamp _ (.waits ?_ zero (insertClaim_own none))
    show (s.chan ch).untimed = { (s.chan ch).untimed with state := .waiting }
    rw [← state]
    rfl

/-- With no claim waiting the claim is granted at once where it fits, else it waits (05: R85). -/
theorem makeClaim_alone (empty : s.arbiter.claims = []) :
    ((makeClaim ch (s.nominal ch) s).chan ch).state = .on ↔ s.committed + s.nominal ch ≤ s.arbiter.limit := by
  unfold makeClaim
  rw [waits_eq_false none, if_neg Bool.false_ne_true, empty]
  by_cases fits : s.arbiter.fits (s.nominal ch) = true
  · rw [if_pos ⟨rfl, fits⟩]
    refine iff_of_true ?_ (of_decide_eq_true fits)
    exact untimed_state (d := { s.chan ch with state := .on }) (handGrant_chan lamp _)
  · rw [if_neg fun both => fits both.2]
    refine iff_of_false (fun on => ?_) fun room => fits (decide_eq_true room)
    have refused : grantPass (s.setArbiter { s.arbiter with claims := insertClaim (s.freshClaim ch) [] }) =
        s.setArbiter { s.arbiter with claims := insertClaim (s.freshClaim ch) [] } := if_neg fits
    have stays := congrArg (fun t : Part => (t.chan ch).state) refused
    exact ChanState.noConfusion (state.symm.trans (stays.symm.trans on))

end

/-! ### A channel that claims its whole nominal current -/

/-- A channel WAITING, its lamp node refreshed from now on. -/
def setWaiting (ch : Fin 25) (s : Part) : Part := startRefresh ch (s.setChan ch { s.chan ch with state := .waiting })

theorem claimChan_reached {s : Part} {ch : Fin 25} (reached : s.unreachable ch = false) :
    claimChan ch s = makeClaim ch (s.nominal ch) (setWaiting ch s) := if_neg (by rw [reached]; exact Bool.false_ne_true)

theorem claimChan_away {s : Part} {ch : Fin 25} (away : s.unreachable ch = true) : claimChan ch s = settleLights
    (noteFault ch (startRefresh ch (s.setChan ch { s.chan ch with state := .unreachable }))) := if_pos away

theorem startRefresh_frame (ch : Fin 25) (s : Part) :
    (startRefresh ch s).arbiter = s.arbiter ∧ (startRefresh ch s).channels.chans = s.channels.chans := by
  unfold startRefresh
  split <;> exact ⟨rfl, rfl⟩

theorem setWaiting_arbiter (ch : Fin 25) (s : Part) : (setWaiting ch s).arbiter = s.arbiter :=
  (startRefresh_frame ch _).1

theorem startRefresh_chan (ch k : Fin 25) (s : Part) : (startRefresh ch s).chan k = s.chan k :=
  congrArg (Vector.get · k) (startRefresh_frame ch s).2

theorem setWaiting_chan (ch : Fin 25) (s : Part) : (setWaiting ch s).chan ch = { s.chan ch with state := .waiting } :=
  (startRefresh_chan ch ch _).trans (setChan_chan ..)

theorem setWaiting_still (ch : Fin 25) (s : Part) : Undisturbed s (setWaiting ch s) :=
  ((Reaction.setChan s ch _).trans (.startRefresh ch _)).still

section
variable {s : Part} {ch : Fin 25} (lamp : lampType ch = true)
include lamp

theorem claimChan_claimed (reached : s.unreachable ch = false) (zero : s.grant ch = 0) (none : s.queued ch = []) :
    (claimChan ch s).claimed (s.freshClaim ch) (s.chan ch) := by
  have tables := (setWaiting_still ch s).tables
  have claimed := makeClaim_claimed (s := setWaiting ch s) lamp (by rw [setWaiting_chan])
    (by unfold Part.queued; rw [setWaiting_arbiter]; exact none)
    (by unfold Part.grant; rw [setWaiting_arbiter]; exact zero)
  rw [nominal_tables tables, freshClaim_tables tables, setWaiting_chan] at claimed
  rw [claimChan_reached reached]
  cases claimed with
  | granted chan grant queued => exact .granted chan grant queued
  | waits chan grant queued => exact .waits chan grant queued

theorem claimChan_alone (reached : s.unreachable ch = false) (none : s.queued ch = []) (empty : s.arbiter.claims = []) :
    ((claimChan ch s).chan ch).state = .on ↔ s.committed + s.nominal ch ≤ s.arbiter.limit := by
  have alone := makeClaim_alone (s := setWaiting ch s) lamp (by rw [setWaiting_chan])
    (by unfold Part.queued; rw [setWaiting_arbiter]; exact none) (by rw [setWaiting_arbiter]; exact empty)
  unfold Part.committed at alone ⊢
  rw [nominal_tables (setWaiting_still ch s).tables, setWaiting_arbiter] at alone
  rw [claimChan_reached reached]
  exact alone

end

/-- A channel whose node is away claims nothing. -/
theorem claimChan_lost {s : Part} {ch : Fin 25} (away : s.unreachable ch = true) :
    ((claimChan ch s).chan ch).untimed = { (s.chan ch).untimed with state := .unreachable } ∧
    (claimChan ch s).grant ch = s.grant ch ∧ (claimChan ch s).queued ch = s.queued ch := by
  have written := setChan_chan s ch { s.chan ch with state := .unreachable }
  have rest : Leaves ch (s.setChan ch { s.chan ch with state := .unreachable }) (claimChan ch s) := by
    rw [claimChan_away away]
    exact ((Leaves.startRefresh _ ch).trans (.noteFault _ ch)).trans (.settleLights _)
  refine ⟨rest.chan.trans ?_, rest.grant, rest.queued⟩
  rw [written]
  rfl

theorem unreachable_iff (s : Part) (ch : Fin 25) (lamp : lampType ch = true) : s.unreachable ch = true ↔
    17 ≤ ch.val ∧ ¬ ∃ r, s.lampNode (s.chanCfg ch).node = some r ∧ r.reachable = true := by
  have far : kindOf ch = .remote ↔ 17 ≤ ch.val := by
    refine ⟨fun remote => ?_, kindOf_remote⟩
    simp only [lampType, Bool.or_eq_true, decide_eq_true_eq] at lamp
    exact lamp.resolve_left fun near => ChanKind.noConfusion ((if_pos near : kindOf ch = .lamp).symm.trans remote)
  unfold Part.unreachable
  rw [Bool.and_eq_true_iff, beq_iff_eq, far]
  refine and_congr_right fun _ => ?_
  cases s.lampNode (s.chanCfg ch).node with
  | none => simp
  | some r => simp

/-! ### The retry -/

/-- A channel whose retry timer has ended (04: R70). -/
def retried (ch : Fin 25) (s : Part) : Part :=
  s.setChan ch { s.chan ch with retry := (s.chan ch).retry + 1, retryTimer := none }

theorem retryChan_eq (ch : Fin 25) (s : Part) : retryChan ch s = claimChan ch (retried ch s) := rfl

theorem retried_chan (ch : Fin 25) (s : Part) : (retried ch s).chan ch =
    { s.chan ch with retry := (s.chan ch).retry + 1, retryTimer := none } := setChan_chan ..

/-- Beyond count and timer, the retry of a channel with no grant and no claim changes state and overload timer alone. -/
theorem retryChan_chan {s : Part} {ch : Fin 25} (lamp : lampType ch = true) (zero : s.grant ch = 0)
    (none : s.queued ch = []) : ∃ st, ((retryChan ch s).chan ch).untimed =
      { ((retried ch s).chan ch).untimed with state := st } := by
  rw [retryChan_eq]
  cases reached : (retried ch s).unreachable ch with
  | true => exact ⟨_, (claimChan_lost reached).1⟩
  | false => exact (claimChan_claimed lamp reached zero none).chan

/-- The state after the retry, with the grant and the claim that go with it. -/
theorem retryChan_claims {s : Part} {ch : Fin 25} (lamp : lampType ch = true) (zero : s.grant ch = 0)
    (none : s.queued ch = []) (reached : s.unreachable ch = false) :
    ((retryChan ch s).chan ch).state = .on ∧ (retryChan ch s).grant ch = s.nominal ch ∧
      (retryChan ch s).claimOf ch = Option.none ∨
    ((retryChan ch s).chan ch).state = .waiting ∧ (retryChan ch s).grant ch = 0 ∧
      (retryChan ch s).claimOf ch = some (s.freshClaim ch) := by
  rw [retryChan_eq]
  cases claimChan_claimed (s := retried ch s) lamp reached zero none with
  | granted chan grant queued =>
    have state := untimed_state (d := { (retried ch s).chan ch with state := .on }) chan
    exact .inl ⟨state, grant, (claimOf_none_iff ..).2 queued⟩
  | waits chan grant queued =>
    have state := untimed_state (d := { (retried ch s).chan ch with state := .waiting }) chan
    refine .inr ⟨state, grant, ?_⟩
    rw [claimOf_eq]
    exact congrArg List.head? queued

theorem retryChan_away {s : Part} {ch : Fin 25} (zero : s.grant ch = 0) (none : s.queued ch = [])
    (away : s.unreachable ch = true) : ((retryChan ch s).chan ch).state = .unreachable ∧
      (retryChan ch s).grant ch = 0 ∧ (retryChan ch s).claimOf ch = Option.none := by
  rw [retryChan_eq]
  obtain ⟨chan, grant, queued⟩ := claimChan_lost (s := retried ch s) away
  have state := untimed_state (d := { (retried ch s).chan ch with state := .unreachable }) chan
  exact ⟨state, grant.trans zero, (claimOf_none_iff ..).2 (queued.trans none)⟩

/-- The channel has left OFF, so no DORMANT entry ends the event. -/
theorem retryChan_used {s : Part} {ch : Fin 25} (lamp : lampType ch = true) (zero : s.grant ch = 0)
    (none : s.queued ch = []) : ((retryChan ch s).chan ch).state ≠ .off := by
  cases reached : s.unreachable ch with
  | true =>
    rw [(retryChan_away zero none reached).1]
    exact ChanState.noConfusion
  | false =>
    rcases retryChan_claims lamp zero none reached with ⟨state, -⟩ | ⟨state, -⟩ <;> rw [state] <;>
      exact ChanState.noConfusion

/-- The lamp node of the channel is refreshed from the retry on (04: R76). -/
theorem retryChan_refreshes {s : Part} {ch : Fin 25} {n : Nat} {r : LampNode} (mem : ch ∈ s.remotesOf n)
    (record : (retryChan ch s).lampNode n = some r) : r.refresh ≠ none := by
  have reach : (retryChan ch s).reach = s.reach :=
    ((SameReach.setChan s ch _).trans (.claimChan ch (retried ch s))).reach
  have known := lampNode_reachable (n := n) reach
  rw [record] at known
  obtain ⟨r', record', -⟩ := Option.map_eq_some_iff.1 known.symm
  obtain ⟨-, r'', found, runs⟩ := claimChan_refreshes (s := retried ch s) mem record'
  rw [retryChan_eq, found] at record
  cases record
  exact runs

theorem exec_retryTimerExpiry {s : State} {ch : Fin 25} (on : s.part.on = true) (lamp : lampType ch = true)
    (fault : (s.part.chan ch).state = .fault) (runs : (s.part.chan ch).retryTimer ≠ none) :
    exec (.retryTimerExpiry ch) s = s.nextPart (finish (retryChan ch s.part)) :=
  congrArg s.nextPart (eventIf_eq _ on (by rw [lamp, fault, Option.isSome_iff_ne_none.2 runs]; rfl))

/-- Settles O44, by what the claim of the retry comes to. -/
theorem retryClaimsAgain : Obligations.RetryClaimsAgain := by
  intro s ch on lamp fault runs zero unclaimed u away
  have none : u.queued ch = [] := (claimOf_none_iff u ch).1 unclaimed
  have ended := finish_used lamp (retryChan_used lamp zero none)
  obtain ⟨st, chan⟩ := retryChan_chan lamp zero none
  have before := retried_chan ch u
  rw [before] at chan
  have gone : away ↔ u.unreachable ch = true := (unreachable_iff u ch lamp).symm
  have reached : ¬ away → u.unreachable ch = false := fun near => Bool.eq_false_iff.2 (mt gone.2 near)
  refine ⟨_, exec_retryTimerExpiry on lamp fault runs, ?_⟩
  rw [ended.chan, ended.grant, ended.claimOf]
  let after : Chan := { u.chan ch with retry := (u.chan ch).retry + 1, retryTimer := Option.none, state := st }
  refine ⟨untimed_field (d := after) Chan.retry (fun _ => rfl) chan,
    untimed_field (d := after) Chan.demand (fun _ => rfl) chan,
    untimed_field (d := after) Chan.retryTimer (fun _ => rfl) chan,
    fun far => retryChan_away zero none (gone.1 far),
    fun near => retryChan_claims lamp zero none (reached near),
    fun near empty => claimChan_alone (s := retried ch u) lamp (reached near) none empty, fun far fed r record => ?_⟩
  rw [ended.lampNode] at record
  refine retryChan_refreshes (mem_remotesOf.2 ⟨far, ?_, rfl⟩) record
  unfold Part.nominal at fed
  rw [kindOf_remote far] at fed
  exact fed

end Sys2Proof.Machine
end

section
/-! The end of a refresh timer (04: R75, R76; 02: R40, R41; obligation O45). -/

namespace Sys2Proof.Machine

/-! ### What waits in the own transmit queues -/

/-- Nothing that waits in an own transmit queue is lost. -/
structure KeepsOwn (s t : Part) : Prop where
  mem : ∀ p, ∀ x ∈ s.ownQ p, x ∈ t.ownQ p

theorem KeepsOwn.refl (s : Part) : KeepsOwn s s := ⟨fun _ _ => id⟩

theorem KeepsOwn.trans {s t u : Part} (h : KeepsOwn s t) (k : KeepsOwn t u) : KeepsOwn s u :=
  ⟨fun p x mem => k.mem p x (h.mem p x mem)⟩

theorem KeepsOwn.foldl {α : Type} {f : Part → α → Part} (hf : ∀ s x, KeepsOwn s (f s x)) (xs : List α) (s : Part) :
    KeepsOwn s (xs.foldl f s) := by
  induction xs generalizing s with
  | nil => exact .refl s
  | cons x xs ih => exact (hf s x).trans (ih _)

theorem KeepsOwn.ite {s a b : Part} {c : Prop} [Decidable c] (ha : KeepsOwn s a) (hb : KeepsOwn s b) :
    KeepsOwn s (if c then a else b) := by
  split
  · exact ha
  · exact hb

theorem KeepsOwn.of_eq {s t : Part} (relay : t.relay = s.relay) : KeepsOwn s t :=
  ⟨fun p x mem => by unfold Part.ownQ; rw [relay]; exact mem⟩

/-- The queue of another port stays. -/
theorem queueOwn_other (e : OwnEntry) (s : Part) (p : Port) : (queueOwn e s p.other).ownQ p = s.ownQ p := by
  unfold queueOwn
  split
  · rfl
  · exact get_other_set ..

theorem queueOwn_own {e : OwnEntry} {s : Part} {p : Port} (up : (s.port p).state ≠ .down) :
    (queueOwn e s p).ownQ p = enqueue e (s.ownQ p) := by
  unfold queueOwn
  rw [if_neg up, setOwnQ_ownQ]

/-- An entry that is no LAMP_COMMAND takes no place of another (02: R41). -/
theorem KeepsOwn.queueOwn {e : OwnEntry} (h : e.isLampCommand = false) (s : Part) (p : Port) :
    KeepsOwn s (queueOwn e s p) := by
  refine ⟨fun q x mem => ?_⟩
  rcases port_cases q p with rfl | rfl
  · by_cases down : (s.port p).state = .down
    · rw [show Machine.queueOwn e s p = s from if_pos down]
      exact mem
    · rw [queueOwn_own down]
      unfold enqueue
      rw [h, Bool.false_and, if_neg Bool.false_ne_true]
      split
      · exact List.mem_append_left _ mem
      · exact mem
  · rw [queueOwn_other]
    exact mem

theorem KeepsOwn.requestNotice (s : Part) : KeepsOwn s (requestNotice s) :=
  .ite (.refl s) (.foldl (.queueOwn rfl) _ s)

theorem KeepsOwn.oweNotice (c : Cond) (s : Part) : KeepsOwn s (oweNotice c s) := by
  have owed : KeepsOwn s { s with mgmt := { s.mgmt with owed := true } } := .of_eq rfl
  exact .ite (owed.trans (.requestNotice _)) (.refl s)

theorem KeepsOwn.setCond (c : Cond) (b : Bool) (s : Part) : KeepsOwn s (setCond c b s) := by
  have mark : KeepsOwn s (s.markActive c b) := .of_eq rfl
  have changed : ∀ v, KeepsOwn (s.markActive c b) { s.markActive c b with
      mgmt := { (s.markActive c b).mgmt with changed := v } } := fun v => .of_eq rfl
  exact .ite (.refl s) (.ite mark ((mark.trans (changed _)).trans (.oweNotice c _)))

theorem KeepsOwn.syncConds (s : Part) : KeepsOwn s (syncConds s) :=
  .ite (.foldl (fun t (x : Cond × Bool) => .setCond x.1 x.2 t) _ s) (.refl s)

/-- With a channel in use, no DORMANT entry ends the event: NOTICEs may be queued, and nothing that waits is lost. -/
theorem KeepsOwn.finish {s : Part} {ch : Fin 25} (lamp : lampType ch = true) (used : (s.chan ch).state ≠ .off) :
    KeepsOwn s (finish s) := by
  have busy : (Machine.syncConds s).allOff = false := by
    rw [(FlagsOnly.syncConds s).outputs.allOff]
    exact allOff_of_used lamp used
  have awake : testDeferral (Machine.syncConds s) = Machine.syncConds s := by
    refine if_neg fun ⟨_, _, may⟩ => ?_
    unfold Part.mayEnterDormant at may
    rw [busy] at may
    simp at may
  have timers : KeepsOwn (testDeferral (Machine.syncConds s)) (Machine.finish s) := .of_eq rfl
  rw [awake] at timers
  exact (KeepsOwn.syncConds s).trans timers

/-! ### A LAMP_COMMAND queued -/

/-- A place is free for a LAMP_COMMAND, or one for the same node waits (02: R40, R41). -/
def hasPlace (q : List OwnEntry) (n : Nat) : Prop :=
  q.length < 8 ∨ ∃ x ∈ q, x.isLampCommand = true ∧ x.dest = n

theorem mem_enqueue_lamp {e : OwnEntry} {q : List OwnEntry} (lamp : e.isLampCommand = true)
    (place : hasPlace q e.dest) : e ∈ enqueue e q := by
  unfold enqueue
  split
  · rename_i absorbs
    obtain ⟨x, mem, takes⟩ := List.any_eq_true.1 (Bool.and_eq_true_iff.1 absorbs).2
    exact List.mem_map.2 ⟨x, mem, if_pos takes⟩
  · rename_i alone
    have none : ¬ ∃ x ∈ q, x.isLampCommand = true ∧ x.dest = e.dest := fun ⟨x, mem, command, dest⟩ =>
      alone (Bool.and_eq_true_iff.2 ⟨lamp, List.any_eq_true.2 ⟨x, mem, by simp [command, dest]⟩⟩)
    rw [if_pos (show q.length < ownPlaces from place.resolve_right none)]
    exact List.mem_append_right _ (List.mem_singleton_self e)

theorem mem_enqueue_again {e : OwnEntry} {q : List OwnEntry} (lamp : e.isLampCommand = true) (mem : e ∈ q) :
    e ∈ enqueue e q := (enqueue_commands lamp mem).elim id (·.2.2)

section
variable {e : OwnEntry} (lamp : e.isLampCommand = true) {p : Port}
include lamp

theorem queueOwn_again {s : Part} (q : Port) (mem : e ∈ s.ownQ p) : e ∈ (queueOwn e s q).ownQ p := by
  rcases port_cases p q with rfl | rfl
  · by_cases down : (s.port q).state = .down
    · rw [show queueOwn e s q = s from if_pos down]
      exact mem
    · rw [queueOwn_own down]
      exact mem_enqueue_again lamp mem
  · rw [queueOwn_other]
    exact mem

/-- A LAMP_COMMAND is in the queue of each port it goes to that is not DOWN and has a place for it. -/
theorem mem_queueEach {ps : List Port} (target : p ∈ ps) {s : Part} (up : (s.port p).state ≠ .down)
    (place : hasPlace (s.ownQ p) e.dest) : e ∈ (ps.foldl (queueOwn e) s).ownQ p := by
  have later : ∀ (qs : List Port) (t : Part), e ∈ t.ownQ p → e ∈ (qs.foldl (queueOwn e) t).ownQ p := by
    intro qs
    induction qs with
    | nil => exact fun _ => id
    | cons q qs ih => exact fun t mem => ih _ (queueOwn_again lamp q mem)
  induction ps generalizing s with
  | nil => cases target
  | cons q qs ih =>
    rcases port_cases p q with rfl | rfl
    · refine later qs _ ?_
      rw [queueOwn_own up]
      exact mem_enqueue_lamp lamp place
    · have apart : p ≠ p.other := by cases p <;> decide
      refine ih ((List.mem_cons.1 target).resolve_left apart) ?_ ?_
      · rw [((Reaction.queueOwn e s p.other).still.portRest p).1]
        exact up
      · rw [queueOwn_other]
        exact place

end

/-- The ports of a LAMP_COMMAND: that of a known node, else both (02: R40). -/
theorem mem_targets {s : Part} {n : Nat} {p : Port}
    (h : s.knownPort n = some p ∨ ∀ q, s.knownPort n ≠ some q) : p ∈ s.targets n := by
  unfold Part.targets
  rcases h with known | unknown
  · rw [known]
    exact List.mem_singleton_self p
  · rw [Option.eq_none_iff_forall_ne_some.2 unknown]
    cases p <;> simp

/-! ### The refresh -/

/-- A record with its refresh timer set or stopped. -/
def LampNode.timed (t : Option Nat) (r : LampNode) : LampNode := { r with refresh := t }

/-- The record of a node with its refresh timer set or stopped. -/
def setRefresh (n : Nat) (t : Option Nat) (s : Part) : Part := s.onLampNode n (.timed t)

theorem setRefresh_record {s : Part} {n : Nat} {r : LampNode} (record : s.lampNode n = some r) (t : Option Nat) :
    (setRefresh n t s).lampNode n = some (r.timed t) := by
  unfold setRefresh
  rw [onLampNode_lampNode s n (.timed t) fun _ => rfl, record]
  rfl

theorem setRefresh_chans (s : Part) (n : Nat) (t : Option Nat) :
    (setRefresh n t s).channels.chans = s.channels.chans := rfl

section
variable {s : Part} {n : Nat} {r : LampNode} (record : s.lampNode n = some r) (free : s.mode ≠ .held)
include record free

theorem commandNode_eq : commandNode s n = setRefresh n (if s.nodeInUse n then some 200 else none)
    (originate n (.lampCommand r.lit r.dim r.duty) s) := by
  unfold commandNode
  rw [record]
  exact if_neg free

/-- The record of a node in use that has been commanded: its timer runs for 200 ms again, its masks stay. -/
theorem commandNode_record (used : s.nodeInUse n = true) :
    (commandNode s n).lampNode n = some (r.timed (some 200)) := by
  rw [commandNode_eq record free, used]
  exact setRefresh_record (((FlagsOnly.originate ..).outputs.lampNode n).trans record) _

theorem mem_commandNode {p : Port} (target : p ∈ s.targets n) (up : (s.port p).state ≠ .down)
    (place : hasPlace (s.ownQ p) n) :
    { dest := n, source := s.mgmt.node, body := .lampCommand r.lit r.dim r.duty } ∈ (commandNode s n).ownQ p := by
  rw [commandNode_eq record free]
  exact mem_queueEach (e := { dest := n, source := s.mgmt.node, body := .lampCommand r.lit r.dim r.duty }) rfl target up
    place

/-- A command changes no output but the record's timer. -/
theorem commandNode_outputs : (commandNode s n).channels.chans = s.channels.chans ∧
    (commandNode s n).arbiter = s.arbiter ∧ (commandNode s n).lamps = s.lamps ∧ (commandNode s n).fan = s.fan ∧
    (commandNode s n).gauges = s.gauges := by
  obtain ⟨⟨channels, arbiter, lamps, fan, gauges⟩, -⟩ := FlagsOnly.originate n (.lampCommand r.lit r.dim r.duty) s
  rw [commandNode_eq record free]
  exact ⟨(setRefresh_chans ..).trans (congrArg Channels.chans channels), arbiter, lamps, fan, gauges⟩

end

theorem nodeInUse_iff (s : Part) (n : Nat) : s.nodeInUse n = true ↔ ∃ ch : Fin 25, 17 ≤ ch.val ∧
    0 < (s.chanCfg ch).nominal ∧ (s.chanCfg ch).node = n ∧ (s.chan ch).state ≠ .off := by
  unfold Part.nodeInUse
  rw [List.any_eq_true]
  refine exists_congr fun ch => ?_
  rw [mem_remotesOf, bne_iff_ne]
  tauto

theorem exec_refreshTimerExpiry {s : State} {k : Fin 2} {r : LampNode} (on : s.part.on = true)
    (record : s.part.channels.lampNodes[k.val]? = some r) (runs : r.refresh ≠ none) :
    exec (.refreshTimerExpiry k) s = s.nextPart (finish (refreshNode r.node s.part)) := by
  have expiry : refreshExpiry k s.part = finish (refreshNode r.node s.part) := by
    unfold refreshExpiry
    rw [record]
    exact eventIf_eq _ on (Option.isSome_iff_ne_none.2 runs)
  exact congrArg s.nextPart expiry

/-- Settles O45, by the command of a node in use and the stopped timer of one that is not. -/
theorem refreshCommandsTheNode : Obligations.RefreshCommandsTheNode := by
  intro s k r on free place record runs u used known
  have inUse : u.nodeInUse r.node = true ↔ used := nodeInUse_iff u r.node
  have node : ∀ p, u.knownPort r.node = some p ↔ known p := knownPort_iff u r.node
  refine ⟨_, exec_refreshTimerExpiry on place runs, ?_⟩
  by_cases use : used
  · obtain ⟨ch, far, -, -, state⟩ := id use
    obtain ⟨chans, arbiter, lamps, fan, gauges⟩ := commandNode_outputs record free
    have lamp := lampType_remote far
    have state' : ((commandNode u r.node).chan ch).state ≠ .off := by
      unfold Part.chan at state ⊢
      rw [chans]
      exact state
    have ended := finish_used lamp state'
    have kept := KeepsOwn.finish lamp state'
    have commanded : refreshNode r.node u = commandNode u r.node := if_pos (inUse.2 use)
    rw [commanded]
    refine ⟨fun _ => ⟨⟨_, (ended.lampNode _).trans (commandNode_record record free (inUse.2 use)), rfl, rfl, rfl⟩,
      fun p target up room => kept.mem p _ (mem_commandNode record free (mem_targets ?_) up room)⟩,
      fun idle => absurd use idle, fun _ => ?_⟩
    · exact target.imp (node p).2 fun unknown q knows => unknown q ((node q).1 knows)
    · obtain ⟨channels, arbiter', lamps', fan', gauges'⟩ := ended
      exact ⟨(congrArg Channels.chans channels).trans chans, arbiter'.trans arbiter, lamps'.trans lamps,
        fan'.trans fan, gauges'.trans gauges⟩
  · have stopped : refreshNode r.node u = setRefresh r.node none u := if_neg (mt inUse.1 use)
    rw [stopped]
    have ended := fun deferral => (finish_outputs (setRefresh r.node none u) (.inl deferral)).1
    refine ⟨fun h => absurd h use, fun _ deferral => ?_, fun h => ?_⟩
    · exact ⟨r.timed none, ((ended deferral).lampNode _).trans (setRefresh_record record none), rfl⟩
    · obtain ⟨channels, arbiter, lamps, fan, gauges⟩ := ended (h.resolve_right use)
      exact ⟨(congrArg Channels.chans channels).trans (setRefresh_chans ..), arbiter, lamps, fan, gauges⟩

end Sys2Proof.Machine
end

section
/-! The load budget across the blocks' reactions (05: R82, R83, R85, R86): each keeps the committed total under the
limit, the claims in order, and the limit in force at the figure of its row. -/

namespace Sys2Proof.Machine

/-! ### The laws -/

/-- The limit in force is the figure of its row (05: Table 2), which RUNNING with the ignition OFF has none of. -/
def Part.rowOk (s : Part) : Prop := ¬ (s.mode = .running ∧ s.ignition = .off) → s.arbiter.limit = s.limitFigure

/-- The law of the limit in force asks a running part for its row. -/
theorem limitOk_iff (s : Part) : s.limitOk ↔ (s.on = true → s.rowOk) := by
  refine imp_congr_right fun _ => ⟨fun ⟨charged, discharged, acc, crank, standing, off⟩ row => ?_, fun ok => ?_⟩
  · unfold Part.limitFigure
    cases mode : s.mode with
    | running =>
      cases ignition : s.ignition with
      | run =>
        cases charging : s.power.charging with
        | charging => exact charged mode ignition charging
        | discharging => exact discharged mode ignition charging
      | acc => exact acc mode ignition
      | crank => exact crank mode ignition
      | off => exact absurd ⟨mode, ignition⟩ row
    | standing => exact standing mode
    | dormant | quiet | held => exact off (by rw [mode]; decide) (by rw [mode]; decide)
  · have figure := fun h => (ok h).trans (show s.limitFigure = _ from rfl)
    unfold Part.limitFigure at figure
    refine ⟨fun mode ignition charging => ?_, fun mode ignition charging => ?_, fun mode ignition => ?_,
      fun mode ignition => ?_, fun mode => ?_, fun running standing => ?_⟩
    · simpa [mode, ignition, charging] using figure
    · simpa [mode, ignition, charging] using figure
    · simpa [mode, ignition] using figure
    · simpa [mode, ignition] using figure
    · simpa [mode] using figure
    · cases mode : s.mode with
      | running => exact absurd mode running
      | standing => exact absurd mode standing
      | dormant | quiet | held => simpa [mode] using figure

/-- The committed total stays within the limit and the claims stay in order. -/
structure KeepsClaims (s t : Part) : Prop where
  budget : s.budgetOk → t.budgetOk
  claims : s.claimsOk → t.claimsOk

/-- The limit stays at its row too. -/
structure KeepsLoad (s t : Part) : Prop extends KeepsClaims s t where
  row : s.rowOk → t.rowOk

theorem KeepsClaims.trans {s t u : Part} (h : KeepsClaims s t) (k : KeepsClaims t u) : KeepsClaims s u :=
  ⟨k.budget ∘ h.budget, k.claims ∘ h.claims⟩

theorem KeepsClaims.of_arbiter {s t : Part} (arbiter : t.arbiter = s.arbiter) : KeepsClaims s t := by
  refine ⟨?_, ?_⟩
  · unfold Part.budgetOk Part.committed Part.grant
    rw [arbiter]
    exact id
  · unfold Part.claimsOk
    rw [arbiter]
    exact id

theorem KeepsLoad.refl (s : Part) : KeepsLoad s s := ⟨⟨id, id⟩, id⟩

theorem KeepsLoad.trans {s t u : Part} (h : KeepsLoad s t) (k : KeepsLoad t u) : KeepsLoad s u :=
  ⟨h.toKeepsClaims.trans k.toKeepsClaims, k.row ∘ h.row⟩

theorem KeepsLoad.foldl {α : Type} {f : Part → α → Part} (hf : ∀ s x, KeepsLoad s (f s x)) (xs : List α)
    (s : Part) :
    KeepsLoad s (xs.foldl f s) := by
  induction xs generalizing s with
  | nil => exact .refl s
  | cons x xs ih => exact (hf s x).trans (ih _)

theorem KeepsLoad.ite {s a b : Part} {c : Prop} [Decidable c] (ha : KeepsLoad s a) (hb : KeepsLoad s b) :
    KeepsLoad s (if c then a else b) := by
  split
  · exact ha
  · exact hb

/-! ### What a row depends on -/

section
variable {s t : Part}

theorem limitFigure_congr (mode : t.mode = s.mode) (ignition : t.ignition = s.ignition)
    (charging : t.power.charging = s.power.charging) (figures : t.tables.power = s.tables.power) :
    t.limitFigure = s.limitFigure := by
  unfold Part.limitFigure
  rw [mode, ignition, charging, figures]

theorem rowOk_congr (limit : t.arbiter.limit = s.arbiter.limit) (mode : t.mode = s.mode)
    (ignition : t.ignition = s.ignition) (charging : t.power.charging = s.power.charging)
    (figures : t.tables.power = s.tables.power) (ok : s.rowOk) : t.rowOk := by
  intro row
  rw [limit, limitFigure_congr mode ignition charging figures]
  rw [mode, ignition] at row
  exact ok row

/-- Outside RUNNING the row depends on the mode and the figures alone. -/
theorem rowOk_away (limit : t.arbiter.limit = s.arbiter.limit) (mode : t.mode = s.mode) (away : s.mode ≠ .running)
    (figures : t.tables.power = s.tables.power) (ok : s.rowOk) : t.rowOk := by
  intro _
  rw [limit, ok fun row => away row.1]
  unfold Part.limitFigure
  rw [mode, figures]
  cases h : s.mode with
  | running => exact absurd h away
  | standing | dormant | quiet | held => rfl

/-- An update apart from the budget, the power manager and the figures of POWER. -/
theorem KeepsLoad.of_eq (arbiter : t.arbiter = s.arbiter) (power : t.power = s.power)
    (figures : t.tables.power = s.tables.power) : KeepsLoad s t where
  toKeepsClaims := .of_arbiter arbiter
  row := rowOk_congr (by rw [arbiter]) (congrArg Power.mode power)
    (by unfold Part.ignition; rw [power]) (congrArg Power.charging power) figures

/-- A reaction that leaves the limit and the mode alone. -/
theorem KeepsLoad.of_reaction (h : Reaction s t) (limit : t.arbiter.limit = s.arbiter.limit)
    (mode : t.mode = s.mode) : KeepsLoad s t where
  budget := h.budget
  claims := h.claims
  row := by
    obtain ⟨-, -, -, -, -, charging⟩ := h.still.power
    exact rowOk_congr limit mode h.still.ignition charging (congrArg Tables.power h.still.tables)

/-- Flags and notices. -/
theorem KeepsLoad.of_flags (h : Reaction s t) (k : FlagsOnly s t) : KeepsLoad s t :=
  .of_reaction h (congrArg Arbiter.limit k.outputs.2.1) (congrArg Power.mode k.power)

end

/-! ### Single updates -/

theorem KeepsLoad.setChan (s : Part) (ch : Fin 25) (c : Chan) : KeepsLoad s (s.setChan ch c) := .of_eq rfl rfl rfl

theorem KeepsLoad.setChannels (s : Part) (c : Channels) : KeepsLoad s { s with channels := c } := .of_eq rfl rfl rfl

theorem KeepsLoad.onLampNode (s : Part) (n : Nat) (f : LampNode → LampNode) : KeepsLoad s (s.onLampNode n f) :=
  .of_eq rfl rfl rfl

theorem KeepsLoad.setLamps (s : Part) (l : Lamps) : KeepsLoad s { s with lamps := l } := .of_eq rfl rfl rfl

theorem KeepsLoad.setFan (s : Part) (f : Fan) : KeepsLoad s (s.setFan f) := .of_eq rfl rfl rfl

theorem KeepsLoad.setGauge (s : Part) (g : Fin 4) (r : Gauge) : KeepsLoad s (s.setGauge g r) := .of_eq rfl rfl rfl

/-- The power manager's record but for the mode, the ignition and the charging state. -/
theorem KeepsLoad.setPower (s : Part) (p : Power) (mode : p.mode = s.mode)
    (ignition : (s.setPower p).ignition = s.ignition) (charging : p.charging = s.power.charging) :
    KeepsLoad s (s.setPower p) where
  toKeepsClaims := .of_arbiter rfl
  row := rowOk_congr rfl mode ignition charging rfl

theorem KeepsLoad.vacate (s : Part) (ch : Fin 25) : KeepsLoad s (s.setArbiter (s.arbiter.vacate ch)) :=
  .of_reaction (.vacate s ch) rfl rfl

theorem KeepsLoad.unclaim (s : Part) (ch : Fin 25) : KeepsLoad s (s.setArbiter (s.arbiter.unclaim ch)) :=
  .of_reaction (.unclaim s ch) rfl rfl

theorem KeepsLoad.reprice (s : Part) (ch : Fin 25) (amount : Nat) :
    KeepsLoad s (s.setArbiter (s.arbiter.reprice ch amount)) :=
  .of_reaction (.reprice s ch amount) rfl rfl

/-! ### Own transmit queues, flags and lights -/

theorem KeepsLoad.queueOwn (e : OwnEntry) (s : Part) (p : Port) : KeepsLoad s (queueOwn e s p) :=
  .ite (.refl s) (.of_eq rfl rfl rfl)

theorem KeepsLoad.requestNotice (s : Part) : KeepsLoad s (requestNotice s) :=
  .of_flags (.requestNotice s) (.requestNotice s)

theorem KeepsLoad.answerRequest (q : Request) (a : Answer) (s : Part) : KeepsLoad s (answerRequest q a s) :=
  .ite (.of_eq rfl rfl rfl) (.queueOwn _ s _)

theorem KeepsLoad.answerPlain (q : Request) (st : Status) (s : Part) : KeepsLoad s (answerPlain q st s) :=
  .answerRequest ..

theorem KeepsLoad.answerSleep (st : Status) (s : Part) : KeepsLoad s (answerSleep st s) := by
  unfold Machine.answerSleep
  split
  · exact .refl s
  · have taken : KeepsLoad s { s with mgmt := { s.mgmt with sleep := none } } := .of_eq rfl rfl rfl
    exact taken.trans (.answerRequest ..)

theorem KeepsLoad.setCond (c : Cond) (b : Bool) (s : Part) : KeepsLoad s (setCond c b s) := by
  have flags := FlagsOnly.setCond c b s
  refine .of_eq flags.outputs.2.1 flags.power (congrArg Tables.power ?_)
  exact (setCond_still c b s).tables.trans rfl

theorem KeepsLoad.syncConds (s : Part) : KeepsLoad s (syncConds s) := .of_flags (.syncConds s) (.syncConds s)

theorem KeepsLoad.commandNode (s : Part) (n : Nat) : KeepsLoad s (commandNode s n) := by
  unfold Machine.commandNode
  split
  · exact .refl s
  · exact .ite (.refl s) ((KeepsLoad.of_flags (.originate ..) (.originate ..)).trans (.onLampNode ..))

theorem KeepsLoad.settleLights (s : Part) : KeepsLoad s (settleLights s) :=
  .of_reaction (.settleLights s) (congrArg Arbiter.limit (settleLights_arbiter s))
    (congrArg Power.mode (Steady.settleLights s).power)

theorem KeepsLoad.noteFault (ch : Fin 25) (s : Part) : KeepsLoad s (noteFault ch s) :=
  .ite (.of_eq rfl rfl rfl) (.refl s)

/-! ### Grants and sheds -/

theorem grantHeads_limit (n : Nat) (s : Part) : (grantHeads n s).arbiter.limit = s.arbiter.limit := by
  induction n generalizing s with
  | zero => rfl
  | succ n ih =>
    unfold grantHeads
    split
    · rfl
    · rename_i c cs _
      split
      · exact (ih (grantHead c cs s)).trans (by rw [grantHead_arbiter]; rfl)
      · rfl

theorem KeepsLoad.grantPass (s : Part) : KeepsLoad s (grantPass s) :=
  .of_reaction (.grantPass s) (grantHeads_limit ..) (congrArg Power.mode (Steady.grantPass s).power)

theorem KeepsLoad.passAfter {s t : Part} (old : Part) (h : KeepsLoad s t) : KeepsLoad s (passAfter old t) :=
  .ite h (h.trans (.grantPass t))

theorem makeClaim_limit (ch : Fin 25) (amount : Nat) (s : Part) :
    (makeClaim ch amount s).arbiter.limit = s.arbiter.limit := by
  unfold makeClaim
  split
  · exact grantHeads_limit ..
  · split
    · unfold giveGrant
      rw [handGrant_arbiter]
      rfl
    · exact grantHeads_limit ..

theorem KeepsLoad.makeClaim (ch : Fin 25) (amount : Nat) (s : Part) : KeepsLoad s (makeClaim ch amount s) :=
  .of_reaction (.makeClaim ch amount s) (makeClaim_limit ..) (congrArg Power.mode (Steady.makeClaim ch amount s).power)

theorem shedSome_limit (n : Nat) (s : Part) : (shedSome n s).arbiter.limit = s.arbiter.limit := by
  induction n generalizing s with
  | zero => rfl
  | succ n ih =>
    unfold shedSome
    split
    · rfl
    · split
      · rfl
      · rename_i ch _
        obtain ⟨cs, shed⟩ := shedOne_arbiter ch s
        exact (ih _).trans (by rw [shed]; rfl)

/-- A limit handed to the arbiter is the limit in force (R89). -/
theorem setLimit_limit (new : Nat) (s : Part) : (setLimit new s).arbiter.limit = new := by
  unfold setLimit
  split
  · rename_i same
    exact same.symm
  · dsimp only
    rw [(FlagsOnly.syncConds _).outputs.2.1]
    split
    · exact grantHeads_limit ..
    · exact shedSome_limit ..

/-! ### Channel manager and lamp logic -/

theorem KeepsLoad.startRefresh (ch : Fin 25) (s : Part) : KeepsLoad s (startRefresh ch s) :=
  .ite (.onLampNode s _ _) (.refl s)

theorem KeepsLoad.claimChan (ch : Fin 25) (s : Part) : KeepsLoad s (claimChan ch s) := by
  have refresh : ∀ c : Chan, KeepsLoad s (Machine.startRefresh ch (s.setChan ch c)) := fun c =>
    (KeepsLoad.setChan s ch c).trans (.startRefresh ch _)
  exact .ite (((refresh _).trans (.noteFault _ _)).trans (.settleLights _)) ((refresh _).trans (.makeClaim _ _ _))

theorem KeepsLoad.setDemand (ch : Fin 25) (d : Demand) (s : Part) : KeepsLoad s (setDemand ch d s) := by
  have off : KeepsLoad s (turnOff ch s) :=
    .passAfter s (((KeepsLoad.setChan s ch _).trans (.vacate _ ch)).trans (.settleLights _))
  have demand := KeepsLoad.setChan s ch { s.chan ch with demand := d }
  have lights := demand.trans (.settleLights _)
  exact .ite (.refl s) (.ite off
    (.ite (.ite demand (demand.trans (.claimChan ch _))) (.ite (lights.trans (.noteFault ch _)) lights)))

theorem KeepsLoad.setBulbOut (ch : Fin 25) (out : Bool) (s : Part) : KeepsLoad s (setBulbOut ch out s) := by
  have set := KeepsLoad.setChan s ch { s.chan ch with bulbOut := out }
  exact KeepsLoad.trans (.ite (set.trans (.noteFault ch _)) set) (.syncConds _)

theorem KeepsLoad.sampleLamp (ch : Fin 25) (current : Nat) (s : Part) : KeepsLoad s (sampleLamp ch current s) :=
  (KeepsLoad.setChan s ch _).trans (.setBulbOut ch _ _)

theorem KeepsLoad.faultChan (ch : Fin 25) (k : FaultKind) (l : Bool) (r : Option Nat) (s : Part) :
    KeepsLoad s (faultChan ch k l r s) :=
  .passAfter s (((KeepsLoad.setChan s ch _).trans (.vacate _ ch)).trans (.settleLights _))

theorem KeepsLoad.overloadChan (ch : Fin 25) (s : Part) : KeepsLoad s (overloadChan ch s) :=
  .ite (.faultChan ..) (.faultChan ..)

theorem KeepsLoad.shortChan (ch : Fin 25) (s : Part) : KeepsLoad s (shortChan ch s) := .faultChan ..

theorem KeepsLoad.retryChan (ch : Fin 25) (s : Part) : KeepsLoad s (retryChan ch s) :=
  (KeepsLoad.setChan ..).trans (.claimChan ..)

theorem KeepsLoad.loseChan (s : Part) (ch : Fin 25) : KeepsLoad s (loseChan s ch) := by
  cases losable : (s.chan ch).state.losable with
  | false =>
    rw [loseChan_idle s losable]
    exact .refl s
  | true =>
    rw [loseChan_eq s losable]
    exact ((KeepsLoad.setChan s ch _).trans (.vacate _ ch)).trans (.noteFault ch _)

theorem KeepsLoad.followNodes (s : Part) : KeepsLoad s (followNodes s) := by
  have lost : ∀ t n, KeepsLoad t (loseNode t n) := fun t n =>
    ((KeepsLoad.onLampNode t n _).trans (.foldl .loseChan _ _)).trans (.settleLights _)
  have back : ∀ t n, KeepsLoad t (regainNode t n) := fun t n =>
    ((KeepsLoad.onLampNode t n _).trans (.commandNode _ n)).trans
      (.foldl (fun t ch => .ite (.claimChan ch t) (.refl t)) _ _)
  exact (KeepsLoad.passAfter s (.foldl lost _ s)).trans (.foldl back _ _)

theorem KeepsLoad.evaluateRules (s : Part) : KeepsLoad s (evaluateRules s) := by
  have hand : ∀ t : Part, KeepsLoad t (handResults t) := fun t => by
    have demands := KeepsLoad.foldl (f := handDemand) (fun s ch => .setDemand ch _ s) t.changedChans t
    exact .ite (.ite demands ((demands.trans (.setLamps _ _)).trans (.setChannels _ _))) (.refl t)
  exact .ite (.refl s) (((KeepsLoad.setLamps s _).trans (hand _)).trans (.setLamps _ _))

/-! ### Fan -/

theorem KeepsLoad.fanStep (s : Part) : KeepsLoad s (fanStep s) := by
  unfold Machine.fanStep
  split
  · exact .setFan s _
  · exact (KeepsLoad.setFan s _).trans (.makeClaim _ _ _)

/-- The fan gives back its grant and its claim (07: R124 to R129). -/
theorem KeepsLoad.releaseFan (s : Part) (f : Fan) :
    KeepsLoad s (Machine.passAfter s ((s.setArbiter (s.arbiter.vacate fanChan)).setFan f)) :=
  .passAfter s ((KeepsLoad.vacate s fanChan).trans (.setFan _ _))

theorem KeepsLoad.raiseFan (target : Nat) (s : Part) : KeepsLoad s (raiseFan target s) := by
  have lowered : KeepsLoad s (s.setArbiter (s.arbiter.lower fanChan (need s.tables.fan.nominal target))) :=
    .of_reaction (.lower s s.arbiter _ _ (.inl rfl)) rfl rfl
  have cut := lowered.trans (.setFan _ { s.fan with target := target })
  unfold Machine.raiseFan
  dsimp only
  split
  · split
    · exact (cut.trans ((KeepsLoad.reprice _ _ _).trans (.setFan _ _))).trans (.grantPass _)
    · exact .passAfter s (cut.trans ((KeepsLoad.unclaim _ _).trans (.setFan _ _)))
  · exact .passAfter s cut

theorem KeepsLoad.setTarget (target : Nat) (s : Part) : KeepsLoad s (setTarget target s) := by
  have stop : KeepsLoad s (stopFan s) := .releaseFan s _
  have lowered : KeepsLoad s (s.setArbiter
      ((s.arbiter.unclaim fanChan).lower fanChan (need s.tables.fan.nominal target))) :=
    .of_reaction (.lower s _ _ _ (.inr rfl)) rfl rfl
  have cut : KeepsLoad s (cutFan target s) := .passAfter s (lowered.trans (.setFan _ _))
  have reclaim : KeepsLoad s (reclaimFan target s) := (KeepsLoad.setFan s _).trans (.makeClaim _ _ _)
  have step : ∀ f : Fan, KeepsLoad s (Machine.fanStep (s.setFan f)) := fun f =>
    (KeepsLoad.setFan s f).trans (.fanStep _)
  unfold Machine.setTarget
  refine .ite (.refl s) ?_
  split
  · exact step _
  · exact .ite stop reclaim
  · exact .ite stop (.ite cut (.raiseFan target s))
  · exact .ite stop (.ite cut (step _))
  · exact .ite stop (.setFan s _)
  · exact .setFan s _

theorem KeepsLoad.selectFan (s : Part) : KeepsLoad s (selectFan s) :=
  .ite (.refl s) (.ite (.setFan s _) (.setTarget _ s))

theorem KeepsLoad.sampleFan (current : Nat) (s : Part) : KeepsLoad s (sampleFan current s) := by
  have measured : KeepsLoad s (measureFan current s) := .setChan s _ _
  exact .ite (.ite (.ite (measured.trans (.releaseFan _ _)) (measured.trans (.setFan _ _)))
    (measured.trans (.setFan _ _))) measured

theorem KeepsLoad.overloadFan (s : Part) : KeepsLoad s (overloadFan s) := .releaseFan s _

theorem KeepsLoad.endStallWait (s : Part) : KeepsLoad s (endStallWait s) :=
  .ite ((KeepsLoad.setFan s _).trans (.fanStep _)) (.setFan s _)

/-! ### Gauges -/

theorem KeepsLoad.startTest (s : Part) (g : Fin 4) : KeepsLoad s (startTest s g) :=
  .ite ((KeepsLoad.setGauge s g _).trans (.makeClaim _ _ _)) (.refl s)

theorem KeepsLoad.parkNow (g : Fin 4) (s : Part) : KeepsLoad s (parkNow g s) :=
  (KeepsLoad.setGauge s g _).trans (.vacate _ _)

theorem KeepsLoad.loseSender (s : Part) (g : Fin 4) : KeepsLoad s (loseSender s g) := by
  have parked : KeepsLoad s (markLost g true (Machine.parkNow g s)) := (KeepsLoad.parkNow g s).trans (.setGauge ..)
  unfold Machine.loseSender
  dsimp only
  split
  iterate 2
    split
    · exact .setGauge ..
    · split
      · exact .setGauge ..
      · exact parked
  · exact parked
  · exact .setGauge ..
  all_goals exact .refl s

theorem KeepsLoad.regainSender (s : Part) (g : Fin 4) : KeepsLoad s (regainSender s g) := by
  unfold Machine.regainSender
  dsimp only
  split
  · exact .setGauge ..
  · exact .ite (.setGauge ..) (.refl s)
  · exact (KeepsLoad.setGauge ..).trans (.startTest _ g)
  all_goals exact .refl s

theorem KeepsLoad.followSenders (s : Part) : KeepsLoad s (followSenders s) :=
  (KeepsLoad.passAfter s (.foldl .loseSender _ s)).trans (.foldl .regainSender _ _)

theorem KeepsLoad.parkForIgnition (s : Part) (g : Fin 4) : KeepsLoad s (parkForIgnition s g) := by
  have mark : ∀ t, KeepsLoad t (markLost g false t) := fun t => .setGauge ..
  unfold Machine.parkForIgnition
  refine KeepsLoad.trans ?_ (mark _)
  split
  iterate 3
    split
    · exact .setGauge ..
    · exact .parkNow ..
  · split
    · exact .refl s
    · exact .parkNow ..
  · exact .parkNow ..
  · exact .refl s

theorem KeepsLoad.resumeGauge (s : Part) (g : Fin 4) : KeepsLoad s (resumeGauge s g) := by
  unfold Machine.resumeGauge
  dsimp only
  split
  · refine .ite (.setGauge ..) ?_
    split <;> exact .setGauge ..
  · exact .startTest s g
  all_goals exact .refl s

theorem KeepsLoad.gaugesFollowMode (s : Part) : KeepsLoad s (gaugesFollowMode s) :=
  .ite (.foldl .resumeGauge _ s) (.passAfter s (.foldl .parkForIgnition _ s))

theorem KeepsLoad.endRamp (s : Part) (g : Fin 4) : KeepsLoad s (endRamp s g) :=
  .ite ((KeepsLoad.passAfter s (.parkNow g s)).trans (.startTest _ g)) (.refl s)

/-! ### Power manager -/

/-- The limit selected is that of the row, whatever it was before (R82). -/
theorem selectLimit_row (s : Part) : (selectLimit s).rowOk := by
  have kept := Steady.setLimit s.limitFigure s
  have still := (Reaction.selectLimit s).still
  intro _
  refine (setLimit_limit _ _).trans (limitFigure_congr ?_ still.ignition ?_ ?_).symm
  · exact congrArg Power.mode kept.power
  · exact congrArg Power.charging kept.power
  · exact congrArg Tables.power still.tables

theorem KeepsLoad.selectLimit {s t : Part} (h : KeepsClaims s t) : KeepsLoad s (selectLimit t) where
  toKeepsClaims := h.trans ⟨(Reaction.selectLimit t).budget, (Reaction.selectLimit t).claims⟩
  row _ := selectLimit_row t

theorem KeepsLoad.handBlocks (was : Mode) (s : Part) : KeepsLoad s (handBlocks was s) := by
  have ruled := (KeepsLoad.evaluateRules s).trans (.selectFan _)
  exact .ite (ruled.trans (.foldl .startTest _ _)) (ruled.trans (.gaugesFollowMode _))

/-- A mode or an ignition state handed on brings the limit to its row (R82; 09: R155). -/
theorem handMode_row (was : Mode) (s : Part) : (handMode was s).rowOk := by
  unfold handMode
  split
  · exact (KeepsLoad.handBlocks was _).row (selectLimit_row s)
  · exact selectLimit_row _

theorem KeepsLoad.handMode {s t : Part} (was : Mode) (h : KeepsClaims s t) : KeepsLoad s (handMode was t) where
  toKeepsClaims := h.trans ⟨(Reaction.handMode was t).budget, (Reaction.handMode was t).claims⟩
  row _ := handMode_row was t

theorem KeepsLoad.wakeTo (mode : Mode) (s : Part) : KeepsLoad s (wakeTo mode s) := .handMode _ (.of_arbiter rfl)

theorem KeepsLoad.cancelDeferral (s : Part) : KeepsLoad s (cancelDeferral s) :=
  .ite ((KeepsLoad.setPower s { s.power with deferral := false } rfl rfl rfl).trans (.answerSleep ..)) (.refl s)

theorem KeepsLoad.evaluate (s : Part) : KeepsLoad s (evaluate s) := by
  have rise : ∀ t, KeepsLoad t (demandRise t) := fun t => by
    unfold demandRise
    split
    · exact .cancelDeferral t
    · exact .wakeTo ..
    all_goals exact .refl t
  exact .ite ((KeepsLoad.evaluateRules s).trans (rise _)) (.evaluateRules s)

theorem KeepsLoad.restartIdle (s : Part) : KeepsLoad s (restartIdle s) := by
  unfold Machine.restartIdle
  split
  · exact .setPower s _ rfl rfl rfl
  all_goals exact .refl s

theorem KeepsLoad.enterDormant (s : Part) : KeepsLoad s (enterDormant s) := by
  have moded : ∀ p, KeepsLoad s (Machine.handMode s.mode (forceOff (s.setPower p))) := fun _ =>
    .handMode _ (.of_arbiter rfl)
  exact (moded _).trans (.answerSleep ..)

theorem KeepsLoad.finish (s : Part) : KeepsLoad s (finish s) := by
  have deferred : ∀ t, KeepsLoad t (testDeferral t) := fun t => .ite (.enterDormant t) (.refl t)
  have quiet : ∀ t, KeepsLoad t (followQuiet t) := fun t => .setPower t _ rfl rfl rfl
  have idle : ∀ t, KeepsLoad t (followIdle t) := fun t => .setPower t _ rfl rfl rfl
  exact (((KeepsLoad.syncConds s).trans (deferred _)).trans (quiet _)).trans (idle _)

theorem KeepsLoad.deliverNotice (old s : Part) : KeepsLoad s (deliverNotice old s) := by
  have fan : KeepsLoad s
      (if listed old s s.tables.fan.input then Machine.selectFan (Machine.evaluate s) else Machine.evaluate s) :=
    .ite ((KeepsLoad.evaluate s).trans (.selectFan _)) (.evaluate s)
  exact .ite (.ite (fan.trans (.restartIdle _)) fan) (.refl s)

theorem KeepsLoad.followRoom (s : Part) : KeepsLoad s (followRoom s) := .ite (.setCond ..) (.refl s)

theorem KeepsLoad.followLink (s : Part) : KeepsLoad s (followLink s) := by
  have fresh : KeepsLoad s (followFreshness s) := .of_eq rfl rfl rfl
  exact (((fresh.trans (.deliverNotice s _)).trans (.followNodes _)).trans (.followSenders _)).trans (.followRoom _)

end Sys2Proof.Machine
end

section
/-! The load budget across the link (01, 02): what the ports, the transmitters, the frame relay and the node table do
touches the budget only through the reactions of the blocks. -/

namespace Sys2Proof.Machine

/-! ### Ports -/

theorem KeepsLoad.setPort (s : Part) (p : Port) (r : PortRec) : KeepsLoad s (s.setPort p r) := .of_eq rfl rfl rfl

theorem KeepsLoad.setRx (s : Part) (p : Port) (x : Rx) : KeepsLoad s (s.setRx p x) := .setPort ..

theorem KeepsLoad.setTx (s : Part) (p : Port) (x : TxState) : KeepsLoad s (s.setTx p x) := .setPort ..

theorem KeepsLoad.count (s : Part) (p : Port) (f : Counters → Counters) : KeepsLoad s (s.count p f) := .setPort ..

theorem KeepsLoad.setOwnQ (s : Part) (p : Port) (q : List OwnEntry) : KeepsLoad s (s.setOwnQ p q) := .of_eq rfl rfl rfl

theorem KeepsLoad.setRelayQ (s : Part) (p : Port) (q : List RelayEntry) : KeepsLoad s (s.setRelayQ p q) :=
  .of_eq rfl rfl rfl

theorem KeepsLoad.setNodes (s : Part) (ns : List NodeEntry) : KeepsLoad s (s.setNodes ns) := .of_eq rfl rfl rfl

theorem KeepsLoad.abortTx (p : Port) (s : Part) : KeepsLoad s (abortTx p s) := by
  unfold Machine.abortTx
  split
  · exact .ite ((KeepsLoad.setTx ..).trans (.setRx ..)) (.setTx ..)
  all_goals exact .refl s

theorem KeepsLoad.placePort (p : Port) (r : PortRec) (s : Part) : KeepsLoad s (placePort p r s) :=
  .ite ((KeepsLoad.setPort s p r).trans (.abortTx p _)) (.setPort s p r)

theorem KeepsLoad.writePort (p : Port) (r : PortRec) (s : Part) : KeepsLoad s (writePort p r s) := by
  have synced := (KeepsLoad.placePort p r s).trans (.syncConds _)
  exact .ite (synced.trans (.requestNotice _)) synced

theorem KeepsLoad.takeReframe (p : Port) (s : Part) : KeepsLoad s (takeReframe p s) :=
  .ite ((KeepsLoad.writePort ..).trans (.followLink _)) (.refl s)

theorem KeepsLoad.requestReframe (p : Port) (s : Part) : KeepsLoad s (requestReframe p s) := by
  have ask : KeepsLoad s (s.setPort p { s.port p with reframe := true }) := .setPort ..
  unfold Machine.requestReframe
  dsimp only
  split
  iterate 2 exact ask.trans (.takeReframe p _)
  all_goals exact ask

/-! ### Frames that end -/

theorem KeepsLoad.onCut (p : Port) (f : TxFrame → TxFrame) (s : Part) : KeepsLoad s (onCut p f s) := by
  unfold Machine.onCut
  split
  · exact .setTx ..
  all_goals exact .refl s

theorem KeepsLoad.spoilRelay (p : Port) (x : Rx) (s : Part) : KeepsLoad s (spoilRelay p x s) :=
  .ite (.onCut p _ s) (.refl s)

theorem KeepsLoad.dropFragment (p : Port) (s : Part) : KeepsLoad s (dropFragment p s) :=
  (KeepsLoad.setRx ..).trans (.count ..)

theorem KeepsLoad.dropAborted (p : Port) (s : Part) : KeepsLoad s (dropAborted p s) :=
  ((KeepsLoad.setRx ..).trans (.count ..)).trans (.spoilRelay p _ _)

theorem KeepsLoad.dropFrame (p : Port) (s : Part) : KeepsLoad s (dropFrame p s) := by
  unfold Machine.dropFrame
  split
  iterate 2 exact .setRx ..
  · exact .dropFragment p s
  · exact .dropAborted p s

theorem KeepsLoad.endBad (p : Port) (phase : RxPhase) (alternate : Bool) (s : Part) :
    KeepsLoad s (endBad p phase alternate s) := by
  have counted : KeepsLoad s (countBad p phase s) := (KeepsLoad.setRx ..).trans (.count ..)
  rw [endBad_eq]
  exact (((counted.trans (.writePort ..)).trans (.spoilRelay ..)).trans (.followLink _)).trans (.takeReframe p _)

theorem KeepsLoad.learn (source kind : Nat) (p : Port) (s : Part) : KeepsLoad s (learn source kind p s) := by
  unfold Machine.learn
  split
  · exact .of_eq rfl rfl rfl
  · split
    · exact .setNodes ..
    · exact .ite (.setNodes ..) (.setCond ..)

theorem KeepsLoad.settleTake (p : Port) (x : Rx) (s : Part) : KeepsLoad s (settleTake p x s) := by
  unfold Machine.settleTake
  split <;> exact .of_eq rfl rfl rfl

theorem KeepsLoad.settleRelay (p : Port) (x : Rx) (s : Part) : KeepsLoad s (settleRelay p x s) := by
  unfold Machine.settleRelay
  split
  · exact .refl s
  · exact .setRelayQ ..
  · exact .onCut ..

theorem KeepsLoad.endGood (p : Port) (s : Part) : KeepsLoad s (endGood p s) := by
  have written : KeepsLoad s (writeGood p s) := (KeepsLoad.setRx ..).trans (.writePort ..)
  have settled : KeepsLoad (writeGood p s) (settleCopies p (s.port p).rx (writeGood p s)) :=
    (KeepsLoad.settleTake ..).trans (.settleRelay ..)
  rw [endGood_eq]
  exact (((written.trans settled).trans (.learn ..)).trans (.followLink _)).trans (.takeReframe p _)

/-! ### Symbols -/

theorem KeepsLoad.hear (p : Port) (s : Part) : KeepsLoad s (hear p s) := (KeepsLoad.setPort ..).trans (.setTx ..)

theorem KeepsLoad.onStart (p : Port) (s : Part) : KeepsLoad s (onStart p s) :=
  ((KeepsLoad.dropFrame p s).trans (.takeReframe p _)).trans (.setRx ..)

theorem KeepsLoad.headerTime (p : Port) (s : Part) : KeepsLoad s (headerTime p s) :=
  .ite ((KeepsLoad.setRx ..).trans (.setTx ..)) (.ite ((KeepsLoad.setRx ..).trans (.count ..)) (.setRx ..))

theorem KeepsLoad.takeNibble (p : Port) (n : Nibble) (s : Part) : KeepsLoad s (takeNibble p n s) := by
  cases h : (s.port p).rx.half with
  | none =>
    rw [takeNibble_first n h]
    exact .setRx ..
  | some m =>
    rw [takeNibble_second n h]
    have add : KeepsLoad s (addByte p (m ++ n) s) := .setRx ..
    exact .ite (add.trans (.ite (.onCut ..) (.refl _))) (.ite (add.trans (.headerTime p _)) add)

theorem KeepsLoad.onData (p : Port) (n : Nibble) (s : Part) : KeepsLoad s (onData p n s) := by
  rcases onData_cases p n s with e | e | e <;> rw [e]
  · exact .refl s
  · exact .takeNibble p n s
  · exact .endBad ..

theorem KeepsLoad.breakFrame (p : Port) (isEnd : Bool) (s : Part) : KeepsLoad s (breakFrame p isEnd s) := by
  unfold Machine.breakFrame
  split
  · exact .refl s
  · exact .ite (.setRx ..) (.refl s)
  · exact (KeepsLoad.dropFragment p s).trans (.takeReframe p _)
  · exact (KeepsLoad.dropAborted p s).trans (.takeReframe p _)

theorem KeepsLoad.onBreak (p : Port) (s : Part) : KeepsLoad s (onBreak p s) := by
  rw [onBreak_eq]
  exact .breakFrame p false s

theorem KeepsLoad.onEnd (p : Port) (s : Part) : KeepsLoad s (onEnd p s) := by
  by_cases body : (s.port p).rx.phase = .body
  · rw [onEnd_body body]
    exact .ite (.endGood p s) (.endBad ..)
  · rw [onEnd_break body]
    exact .breakFrame p true s

theorem KeepsLoad.wakeByLine (s : Part) : KeepsLoad s (wakeByLine s) := .handMode _ (.of_arbiter rfl)

/-! ### Replies on their way, a port that goes quiet -/

theorem KeepsLoad.handHeldFrom (rs : List Reply) (s : Part) : KeepsLoad s (handHeldFrom rs s) := by
  have hold : ∀ rs (t : Part), KeepsLoad t (t.setHold rs) := fun _ _ => .of_eq rfl rfl rfl
  induction rs generalizing s with
  | nil => exact hold [] s
  | cons r rs ih => exact .ite (hold _ s) ((KeepsLoad.queueOwn _ s _).trans (ih _))

theorem KeepsLoad.onQuiet (p : Port) (s : Part) : KeepsLoad s (onQuiet p s) := by
  have discard : ∀ t, KeepsLoad t (discardOwn p t) := fun t =>
    .ite ((KeepsLoad.setOwnQ ..).trans (.handHeldFrom ..)) (.setOwnQ ..)
  have silent : KeepsLoad s (silencePort p s) :=
    ((KeepsLoad.dropFrame p s).trans (.placePort ..)).trans (discard _)
  rw [onQuiet_eq]
  exact ((silent.trans (.syncConds _)).trans (.takeReframe p _)).trans (.followLink _)

/-! ### Transmitters and relay queues -/

theorem KeepsLoad.startOwn (p : Port) (e : OwnEntry) (rest : List OwnEntry) (s : Part) :
    KeepsLoad s (startOwn p e rest s) := by
  have sent : ∀ f, KeepsLoad s ((s.setOwnQ p rest).setTx p f) := fun f => (KeepsLoad.setOwnQ ..).trans (.setTx ..)
  exact .ite ((sent _).trans (.handHeldFrom ..)) (sent _)

theorem KeepsLoad.chooseFrame (p : Port) (s : Part) : KeepsLoad s (chooseFrame p s) := by
  unfold Machine.chooseFrame
  split
  · exact .startOwn ..
  · split
    · exact (KeepsLoad.setRelayQ ..).trans (.setTx ..)
    · split
      · exact .startOwn ..
      · exact .setTx ..

theorem KeepsLoad.finishFrame (p : Port) (f : TxFrame) (s : Part) : KeepsLoad s (finishFrame p f s) := by
  have ended : ∀ sent, KeepsLoad s (endTx p sent s) := fun sent => .setPort ..
  have drop : ∀ t, KeepsLoad t (dropSent f t) := fun t => by
    unfold dropSent
    split
    · split
      iterate 2 exact .count ..
      all_goals exact .refl t
    · exact .refl t
  exact .ite ((ended _).trans (drop _)) (.ite (.ite ((ended _).trans (.of_eq rfl rfl rfl)) (ended _)) (.refl s))

theorem KeepsLoad.ageOut (p : Port) (s : Part) : KeepsLoad s (ageOut p s) := by
  unfold Machine.ageOut
  split
  · exact .refl s
  · exact ((KeepsLoad.setRelayQ ..).trans (.count ..)).trans (.setCond ..)

/-! ### The node table -/

theorem KeepsLoad.takePin (s : Part) (c : PinCfg) : KeepsLoad s (takePin s c) := by
  unfold Machine.takePin
  split
  · exact .refl s
  · split <;> exact .setNodes ..

theorem KeepsLoad.clearDuplicate (n : Nat) (s : Part) : KeepsLoad s (clearDuplicate n s) := .setNodes ..

theorem KeepsLoad.stopOwnTimer (s : Part) : KeepsLoad s (stopOwnTimer s) := .of_eq rfl rfl rfl

theorem KeepsLoad.applyPins (s : Part) : KeepsLoad s (applyPins s) :=
  (KeepsLoad.setNodes ..).trans (.foldl .takePin _ _)

theorem KeepsLoad.rewritePin (old new : PinCfg) (s : Part) : KeepsLoad s (rewritePin old new s) :=
  KeepsLoad.trans (.ite (.refl s) (.setNodes ..)) (.takePin _ new)

/-- The node table after a new working node number (02: R31). -/
theorem KeepsLoad.renumber (old : Nat) (s : Part) : KeepsLoad s (renumber old s) := by
  have dropped : KeepsLoad s { s with
      relay := { s.relay with nodes := dropNode s.mgmt.node s.relay.nodes, ownTimer := none } } := .of_eq rfl rfl rfl
  exact dropped.trans (.foldl .takePin _ _)

end Sys2Proof.Machine
end

section
/-! The load budget across the management unit and the power manager (09, 10): table writes, HOLD and RELEASE, supply,
ignition and the power modes. -/

namespace Sys2Proof.Machine

/-! ### Writes of table entries (10: R168) -/

/-- What an accepted write makes of the part has a property. -/
def Written.makes (P : Part → Prop) (w : Written) : Prop := ∀ t, w = .ok t → P t

theorem Written.makes_error (P : Part → Prop) (st : Status) : Written.makes P (.error st) := fun _ accepted => by
  cases accepted

theorem acceptIf_makes {P : Part → Prop} {t : Part} (test : Bool) (h : P t) : Written.makes P (acceptIf test t) := by
  intro u accepted
  unfold acceptIf at accepted
  split at accepted
  · cases accepted
    exact h
  · cases accepted

theorem withEntry_makes {P : Part → Prop} {α : Type} {c : Option α} {f : α → Written}
    (h : ∀ x, Written.makes P (f x)) :
    Written.makes P (withEntry c f) := by
  unfold withEntry
  split
  · exact Written.makes_error _ _
  · exact h _

theorem withIndex_makes {P : Part → Prop} {n i : Nat} {f : Fin n → Written} (h : ∀ k, Written.makes P (f k)) :
    Written.makes P (withIndex n i f) := by
  unfold withIndex
  split
  · exact Written.makes_error _ _
  · exact h _

section
variable (bs : List Byte) (s : Part)

/-- The tables replaced but for the figures of POWER. -/
theorem KeepsLoad.setTables (t : Tables) (figures : t.power = s.tables.power) : KeepsLoad s (s.setTables t) :=
  .of_eq rfl rfl figures

theorem KeepsLoad.dropOwed : KeepsLoad s (dropOwed s) := .ite (.of_eq rfl rfl rfl) (.refl s)

theorem writeLink_load : Written.makes (KeepsLoad s) (writeLink bs s) := by
  have lock : ∀ (p : Port) (l : CheckLock) (t : Part), KeepsLoad t (writeLock p l t) := fun p l t =>
    .ite (.refl t) ((KeepsLoad.setPort ..).trans (.requestReframe p _))
  exact withEntry_makes fun _ => acceptIf_makes _
    ((((KeepsLoad.setTables s _ (by rfl)).trans (.dropOwed _)).trans (lock .front _ _)).trans (lock .rear _ _))

theorem writePin_load (i : Fin 8) : Written.makes (KeepsLoad s) (writePin i bs s) :=
  withEntry_makes fun _ => acceptIf_makes _
    (((KeepsLoad.setTables s _ (by rfl)).trans (.rewritePin _ _ _)).trans (.followLink _))

theorem writeMap_load (i : Fin 32) : Written.makes (KeepsLoad s) (writeMap i bs s) := by
  have input : ∀ (t : Part) (j : Fin 32) (x : Input), KeepsLoad t (t.setInput j x) := fun _ _ _ => .of_eq rfl rfl rfl
  have map : ∀ (old new : MapCfg) (t : Part), KeepsLoad t (remap old new t) := fun old new t => by
    have freed : ∀ c : Prop, [Decidable c] → KeepsLoad t (if c then t.setInput old.input Input.cleared else t) :=
      fun c _ => .ite (input ..) (.refl t)
    exact .ite (freed _) (.ite ((freed _).trans (input ..)) ((freed _).trans (input ..)))
  exact withEntry_makes fun _ => acceptIf_makes _
    (((KeepsLoad.setTables s _ (by rfl)).trans (map _ _ _)).trans (.deliverNotice s _))

theorem writeChan_load (ch : Fin 25) : Written.makes (KeepsLoad s) (writeChan ch bs s) := by
  have apply : ∀ c, KeepsLoad s (applyChan ch c s) := fun c => by
    have rebuilt : ∀ v, KeepsLoad s (rebuildRecords (s.setTables { s.tables with channels := v })) := fun v =>
      .of_eq rfl rfl rfl
    exact .ite ((rebuilt _).trans (.claimChan ch _)) (rebuilt _)
  unfold writeChan
  split
  · split
    · exact Written.makes_error _ _
    · exact withEntry_makes fun _ => acceptIf_makes _ (apply _)
  · exact Written.makes_error _ _

theorem writeFan_load : Written.makes (KeepsLoad s) (writeFan bs s) := by
  unfold writeFan
  split
  · exact Written.makes_error _ _
  · exact withEntry_makes fun _ => acceptIf_makes _ ((KeepsLoad.setTables s _ (by rfl)).trans (.selectFan _))

theorem writeGauge_load (g : Fin 4) : Written.makes (KeepsLoad s) (writeGauge g bs s) := by
  unfold writeGauge
  dsimp only
  split
  · exact Written.makes_error _ _
  · exact withEntry_makes fun _ => acceptIf_makes _
      (((KeepsLoad.setTables s _ (by rfl)).trans (.setGauge _ g _)).trans (.startTest _ g))

/-- An accepted POWER write selects the limit again from the new figures (05: R80, R82). -/
theorem writePower_load : Written.makes (KeepsLoad s) (writePower bs s) :=
  withEntry_makes fun _ => acceptIf_makes _ (.selectLimit (.of_arbiter rfl))

theorem writeRule_load (i : Fin 32) : Written.makes (KeepsLoad s) (writeRule i bs s) :=
  withEntry_makes fun _ => acceptIf_makes _ ((KeepsLoad.setTables s _ (by rfl)).trans (.evaluate _))

theorem writeSetup_load : Written.makes (KeepsLoad s) (writeSetup bs s) := by
  refine withEntry_makes fun d t accepted => ?_
  cases accepted
  exact (KeepsLoad.setTables s { s.tables with dimmer := d } rfl).trans (.evaluate _)

/-- One entry written, whatever its table. -/
theorem writeEntry_load (table i : Nat) : Written.makes (KeepsLoad s) (writeEntry table i bs s) := by
  have sync : ∀ w : Written, Written.makes (KeepsLoad s) w → Written.makes (KeepsLoad s) (w.map syncConds) :=
    fun w h t accepted => by
      cases w with
      | error st => cases accepted
      | ok u =>
        cases accepted
        exact (h u rfl).trans (.syncConds u)
  unfold writeEntry
  dsimp only
  refine sync _ ?_
  split
  · exact writeLink_load bs s
  · exact withIndex_makes (writePin_load bs s)
  · exact withIndex_makes fun _ => acceptIf_makes _ (.setTables s _ rfl)
  · exact withIndex_makes (writeMap_load bs s)
  · exact withIndex_makes (writeChan_load bs s)
  · exact withIndex_makes (writeRule_load bs s)
  · exact writeFan_load bs s
  · exact withIndex_makes (writeGauge_load bs s)
  · exact withIndex_makes fun _ => acceptIf_makes _ (.setTables s _ rfl)
  · exact writePower_load bs s
  · exact writeSetup_load bs s
  · exact Written.makes_error _ _

end

theorem KeepsLoad.writeEntries (table size n i : Nat) (bs : List Byte) (s : Part) :
    KeepsLoad s (writeEntries table size n i bs s).1 := by
  induction n generalizing i bs s with
  | zero => exact .refl s
  | succ n ih =>
    unfold Machine.writeEntries
    split
    · exact .refl s
    · rename_i t accepted
      exact (writeEntry_load _ s table i t accepted).trans (ih ..)

/-! ### The ops (10: R167 to R177) -/

theorem KeepsLoad.setWindow (table index : Nat) (s : Part) : KeepsLoad s (setWindow table index s) :=
  .of_eq rfl rfl rfl

theorem KeepsLoad.doRead (q : Request) (s : Part) : KeepsLoad s (doRead q s) := by
  unfold Machine.doRead
  split <;> exact .answerRequest ..

theorem KeepsLoad.doSelect (q : Request) (s : Part) : KeepsLoad s (doSelect q s) := by
  unfold Machine.doSelect
  split
  · exact .answerPlain ..
  · exact (KeepsLoad.setWindow ..).trans (.answerPlain ..)

theorem KeepsLoad.doReadNext (q : Request) (s : Part) : KeepsLoad s (doReadNext q s) := by
  unfold Machine.doReadNext
  dsimp only
  split
  · exact .answerPlain ..
  · exact (KeepsLoad.setWindow ..).trans (.answerRequest ..)

theorem KeepsLoad.doWriteAt (table index : Nat) (moves : Bool) (q : Request) (s : Part) :
    KeepsLoad s (doWriteAt table index moves q s) := by
  unfold Machine.doWriteAt
  split
  · exact .answerPlain ..
  · dsimp only
    have written := KeepsLoad.writeEntries table (entrySize table) (q.data.length / entrySize table) index q.data s
    exact KeepsLoad.trans (.ite (written.trans (.setWindow ..)) written) (.answerRequest ..)

/-- An arbiter with nothing granted or waiting obeys the laws of the budget (05: R96). -/
theorem empty_laws {s : Part} (arbiter : s.arbiter = Arbiter.empty) : s.budgetOk ∧ s.claimsOk := by
  refine ⟨⟨?_, fun ch held => ?_⟩, ?_⟩
  · unfold Part.committed
    rw [arbiter, committed_empty]
    exact Nat.zero_le _
  · unfold Part.grant at held
    rw [arbiter] at held
    simp [Arbiter.empty] at held
  · unfold Part.claimsOk
    rw [arbiter]
    exact ⟨.nil, .nil⟩

theorem KeepsClaims.of_empty {s t : Part} (arbiter : t.arbiter = Arbiter.empty) : KeepsClaims s t :=
  ⟨fun _ => (empty_laws arbiter).1, fun _ => (empty_laws arbiter).2⟩

/-- HOLD leaves nothing granted or waiting and the limit of HELD, 0.0 A (05: R96). -/
theorem KeepsLoad.takeHold (s : Part) : KeepsLoad s (takeHold s) := ⟨.of_empty rfl, fun _ _ => rfl⟩

theorem KeepsLoad.holdNow (q : Request) (s : Part) : KeepsLoad s (holdNow q s) :=
  KeepsLoad.trans (.ite (.refl s) (.takeHold s)) (.answerPlain ..)

theorem KeepsLoad.doHold (q : Request) (s : Part) : KeepsLoad s (doHold q s) :=
  .ite (.of_eq rfl rfl rfl) (.holdNow q s)

/-- RELEASE loads other figures before it selects the limit. -/
theorem KeepsClaims.releaseBlocks (s : Part) : KeepsClaims s (releaseBlocks s) := by
  have loaded : KeepsClaims s (Machine.setWindow 0 0
      (dropCommands (reloadLocks (s.setTables (loadedTables s.storedTables s.mgmt.node))))) := .of_arbiter rfl
  have pinned : ∀ t, KeepsLoad t (applyPins (Machine.dropOwed t)) := fun t =>
    (KeepsLoad.dropOwed t).trans (.applyPins _)
  have restarted : ∀ t, KeepsLoad t (gaugesFresh (fanStopped (forceOff (rebuildRecords (clearInputs t))))) :=
    fun _ => .of_eq rfl rfl rfl
  exact loaded.trans ((((pinned _).trans (restarted _)).trans (.followNodes _)).trans (.followRoom _)).toKeepsClaims

theorem KeepsLoad.takeRelease (s : Part) : KeepsLoad s (takeRelease s) := by
  have moded : ∀ t p, KeepsClaims t ((followCharging t).setPower p) := fun _ _ => .of_arbiter rfl
  exact .handMode _ (((KeepsClaims.releaseBlocks s).trans (moded _ _)).trans
    (KeepsLoad.foldl .commandNode _ _).toKeepsClaims)

theorem KeepsLoad.doRelease (q : Request) (s : Part) : KeepsLoad s (doRelease q s) :=
  .ite (.answerPlain ..) (.ite (.answerPlain ..) ((KeepsLoad.takeRelease s).trans (.answerPlain ..)))

theorem KeepsLoad.doCommit (q : Request) (s : Part) : KeepsLoad s (doCommit q s) :=
  .ite (.answerPlain ..) (.of_eq rfl rfl rfl)

theorem KeepsLoad.completeCommit (q : Request) (equal : Bool) (s : Part) : KeepsLoad s (completeCommit q equal s) := by
  have deferred : ∀ t, KeepsLoad t (takeDeferred t) := fun t => by
    unfold takeDeferred
    split
    · exact .refl t
    · have freed : KeepsLoad t { t with mgmt := { t.mgmt with slot := none } } := .of_eq rfl rfl rfl
      exact freed.trans (.holdNow _ _)
  have ended : ∀ st, KeepsLoad s
      { s with mgmt := { s.mgmt with store := { s.mgmt.store with state := st }, commit := none } } := fun _ =>
    .of_eq rfl rfl rfl
  exact (((ended _).trans (.setCond ..)).trans (.answerPlain ..)).trans (deferred _)

theorem KeepsLoad.doSleep (q : Request) (s : Part) : KeepsLoad s (doSleep q s) := by
  have deferred : KeepsLoad s
      { s with mgmt := { s.mgmt with sleep := some q }, power := { s.power with deferral := true } } :=
    ⟨.of_arbiter rfl, rowOk_congr rfl rfl rfl rfl rfl⟩
  exact .ite (.answerPlain ..) (.ite (.answerPlain ..) deferred)

theorem KeepsLoad.doAssign (q : Request) (s : Part) : KeepsLoad s (doAssign q s) := by
  have numbered : ∀ n, KeepsLoad s { s with mgmt := { s.mgmt with node := n } } := fun _ => .of_eq rfl rfl rfl
  exact .ite (.answerPlain ..) (.ite (.answerPlain ..) (.ite (.answerPlain ..)
    ((((numbered _).trans (.renumber _ _)).trans (.followLink _)).trans (.answerPlain ..))))

theorem KeepsLoad.doReframe (q : Request) (s : Part) : KeepsLoad s (doReframe q s) := by
  unfold Machine.doReframe
  split
  iterate 2 exact (KeepsLoad.answerPlain ..).trans (.requestReframe ..)
  · exact .answerPlain ..

theorem KeepsLoad.doClear (q : Request) (s : Part) : KeepsLoad s (doClear q s) := by
  have flags : ∀ v w : BitVec 16, KeepsLoad s { s with mgmt := { s.mgmt with active := v, changed := w } } :=
    fun _ _ => .of_eq rfl rfl rfl
  exact (flags _ _).trans (.answerPlain ..)

theorem KeepsLoad.doClearCounters (q : Request) (s : Part) : KeepsLoad s (doClearCounters q s) := by
  have cleared : KeepsLoad s { s with
      ports := ⟨s.ports.front.uncounted, s.ports.rear.uncounted⟩, mgmt := { s.mgmt with dropped := 0 } } :=
    .of_eq rfl rfl rfl
  exact cleared.trans (.answerPlain ..)

/-! ### Requests and the frames of the other consumers -/

theorem KeepsLoad.dropRequest (s : Part) : KeepsLoad s (dropRequest s) := .of_eq rfl rfl rfl

theorem KeepsLoad.serve {permitted : Part → RxEntry → Bool} {lengthOk : Nat → Bool}
    {carry : Request → Part → Part}
    (h : ∀ q s, KeepsLoad s (carry q s)) (e : RxEntry) (s : Part) :
    KeepsLoad s (serve permitted lengthOk carry e s) :=
  KeepsLoad.trans (.ite (.dropRequest s) (.ite (.answerPlain ..) (.ite (.answerPlain ..) (h _ s)))) (.restartIdle _)

theorem KeepsLoad.serveUnknown (e : RxEntry) (s : Part) : KeepsLoad s (serveUnknown e s) :=
  KeepsLoad.trans (.ite (.dropRequest s) (.ite (.answerPlain ..) (.answerPlain ..))) (.restartIdle _)

theorem KeepsLoad.switchReport (a : Port) (source : Nat) (payload : List Byte) (s : Part) :
    KeepsLoad s (switchReport a source payload s) := by
  have taken : KeepsLoad s (takeReports source payload s) := .of_eq rfl rfl rfl
  exact .ite (taken.trans (.deliverNotice s _)) (.refl s)

theorem KeepsLoad.slipGauge (g : Fin 4) (k : SlipKind) (s : Part) : KeepsLoad s (slipGauge g k s) :=
  (KeepsLoad.setGauge s g _).trans (.setCond ..)

theorem KeepsLoad.reportGauges (source : Nat) (payload : List Byte) (s : Part) :
    KeepsLoad s (reportGauges source payload s) := by
  have sample : ∀ g x t, KeepsLoad t (takeSample g x t) := fun g x t =>
    .ite (.setGauge ..) ((KeepsLoad.slipGauge g .drop t).trans (.setGauge ..))
  have gauge : ∀ t g, KeepsLoad t (reportGauge source payload t g) := fun t g => by
    unfold reportGauge
    dsimp only
    split
    · split
      · exact sample ..
      · exact .refl t
    · exact .refl t
  exact .ite (.refl s) (.foldl gauge _ s)

theorem KeepsLoad.lampReport (source : Nat) (payload : List Byte) (s : Part) :
    KeepsLoad s (lampReport source payload s) := by
  have chan : ∀ b t ch, KeepsLoad t (statusChan b t ch) := fun b t ch => by
    unfold statusChan
    split
    iterate 2 exact .setBulbOut ..
    · exact (KeepsLoad.faultChan ..).trans (.syncConds _)
    · exact .refl t
  exact .ite (.refl s) ((KeepsLoad.onLampNode ..).trans (.foldl (chan _) _ _))

theorem KeepsLoad.takeEntry (s : Part) : KeepsLoad s (takeEntry s) := by
  have popped : KeepsLoad s s.popped := .of_eq rfl rfl rfl
  exact .ite (popped.trans (.setCond ..)) popped

/-! ### Outputs, samples and gauge ticks -/

theorem KeepsLoad.sampleLamps (sort : Demand → Bool) (lamps : Vector Nat 12) (s : Part) :
    KeepsLoad s (localLamps.foldl (sampleIf sort lamps) s) :=
  .foldl (fun t _ => .ite (.sampleLamp _ _ t) (.refl t)) _ s

theorem KeepsLoad.sampleStep (lamps : Vector Nat 12) (fan : Nat) (s : Part) : KeepsLoad s (sampleStep lamps fan s) :=
  (KeepsLoad.sampleLamps ..).trans (.sampleFan ..)

theorem KeepsLoad.flashSampleStep (lamps : Vector Nat 12) (s : Part) : KeepsLoad s (flashSampleStep lamps s) :=
  (KeepsLoad.sampleLamps ..).trans (.setChannels ..)

theorem KeepsLoad.crossLevel (ch : Fin 25) (milliamps : Nat) (s : Part) : KeepsLoad s (crossLevel ch milliamps s) :=
  .setChan ..

theorem KeepsLoad.crossFanLevel (milliamps : Nat) (s : Part) : KeepsLoad s (crossFanLevel milliamps s) := .setFan ..

theorem KeepsLoad.onPhaseEdge (s : Part) : KeepsLoad s (onPhaseEdge s) := by
  have edge : ∀ r, KeepsLoad s (onEdge r s) := fun _ => .of_eq rfl rfl rfl
  exact (edge _).trans (.settleLights _)

theorem KeepsLoad.offPhaseEdge (s : Part) : KeepsLoad s (offPhaseEdge s) := by
  have edge : ∀ f, KeepsLoad s (s.setFlasher f) := fun _ => .of_eq rfl rfl rfl
  exact (edge _).trans (.settleLights _)

theorem KeepsLoad.tickSample (g : Fin 4) (s : Part) : KeepsLoad s (tickSample g s) :=
  .ite (.ite ((KeepsLoad.slipGauge g .repeat_ s).trans (.setGauge ..)) (.setGauge ..)) (.ite (.setGauge ..) (.refl s))

theorem KeepsLoad.useSample (g : Fin 4) (s : Part) : KeepsLoad s (useSample g s) := by
  unfold Machine.useSample
  dsimp only
  split
  · exact .refl s
  · exact .setGauge ..
  · split
    · exact .setGauge ..
    · exact .refl s

theorem KeepsLoad.tickGauge (s : Part) (g : Fin 4) : KeepsLoad s (tickGauge s g) := by
  have act : ∀ t, KeepsLoad t (actGauge g t) := fun t => by
    unfold actGauge
    dsimp only
    split
    iterate 3 exact .refl t
    · exact .setGauge ..
    all_goals
      split
      · exact (KeepsLoad.tickSample g _).trans (.useSample g _)
      · exact .setGauge ..
  exact (KeepsLoad.setGauge ..).trans (act _)

theorem KeepsLoad.driveOutput (s : Part) (g : Fin 4) : KeepsLoad s (driveOutput s g) := .ite (.setGauge ..) (.refl s)

theorem KeepsLoad.tickGauges (s : Part) : KeepsLoad s (tickGauges s) :=
  ((KeepsLoad.foldl .tickGauge _ s).trans (.foldl .driveOutput _ _)).trans (.foldl .endRamp _ _)

theorem KeepsLoad.lastRampTick (g : Fin 4) (s : Part) : KeepsLoad s (lastRampTick g s) :=
  ((KeepsLoad.tickGauge s g).trans (.driveOutput _ g)).trans (.endRamp _ g)

theorem KeepsLoad.gaugesSettled (s : Part) : KeepsLoad s (gaugesSettled s) :=
  .foldl (fun t _ => .ite (.setGauge ..) (.refl t)) _ s

/-! ### The power manager -/

theorem KeepsLoad.settleReference (s : Part) : KeepsLoad s (settleReference s) :=
  (KeepsLoad.setPower s { s.power with settled := true, interval := .none } rfl rfl rfl).trans (.gaugesSettled _)

theorem KeepsLoad.beginDeferral (s : Part) : KeepsLoad s (beginDeferral s) :=
  .setPower s { s.power with interval := .none, deferral := true } rfl rfl rfl

/-- The ignition state followed: where the mode stays and is not RUNNING, the row depends on neither (05: Table 2). -/
theorem KeepsLoad.followIgnition {s t : Part} (arbiter : t.arbiter = s.arbiter) (mode : t.mode = s.mode)
    (figures : t.tables.power = s.tables.power) : KeepsLoad s (followIgnition t) := by
  have same : KeepsClaims s t := .of_arbiter arbiter
  have stays : t.mode ≠ .running → KeepsLoad s t := fun away =>
    ⟨same, rowOk_away (by rw [arbiter]) mode (mode ▸ away) figures⟩
  have handed : ∀ was p, KeepsLoad s (Machine.handMode was (t.setPower p)) := fun was _ =>
    .handMode was (same.trans (.of_arbiter rfl))
  unfold Machine.followIgnition
  split
  · exact .ite (handed ..) (.handMode _ same)
  · rename_i standing
    have rises : ∀ p, KeepsClaims s ((Machine.cancelDeferral t).setPower p) := fun _ =>
      (same.trans (KeepsLoad.cancelDeferral t).toKeepsClaims).trans (.of_arbiter rfl)
    exact .ite (stays (by rw [standing]; decide)) (.handMode _ (rises _))
  iterate 2
    rename_i asleep
    have kept := stays (by rw [asleep]; decide)
    exact .ite kept (kept.trans (.wakeTo ..))
  · rename_i held
    exact stays (by rw [held]; decide)

/-- A new charging state selects the limit again (05: R81, R82). -/
theorem KeepsLoad.followSupply (s : Part) : KeepsLoad s (followSupply s) := by
  have low : KeepsLoad s (followLowSupply s) := .ite (.setCond ..) (.ite (.setCond ..) (.refl s))
  have power : (followLowSupply s).power = s.power := by
    have flags : FlagsOnly s (followLowSupply s) := .ite (.setCond ..) (.ite (.setCond ..) (.refl s))
    exact flags.power
  unfold Machine.followSupply
  dsimp only
  split
  · rename_i same
    exact low.trans (.setPower _ _ rfl rfl (same.trans (congrArg Power.charging power).symm))
  · exact .selectLimit (low.toKeepsClaims.trans (.of_arbiter rfl))

theorem KeepsLoad.enterQuiet (s : Part) : KeepsLoad s (enterQuiet s) := .handMode _ (.of_arbiter rfl)

end Sys2Proof.Machine
end

section
/-! Every step keeps the laws of the load budget (05: R82, R83, R85, R86). -/

namespace Sys2Proof.Machine

/-! ### Events -/

/-- What every event keeps: the laws of the budget and of the claims, and in a running part the limit at its row. -/
structure KeepsBudget (s t : Part) : Prop extends KeepsClaims s t where
  limit : s.limitOk → t.limitOk

theorem KeepsBudget.refl (s : Part) : KeepsBudget s s := ⟨⟨id, id⟩, id⟩

/-- An event after which the part runs only if it ran before. -/
theorem KeepsLoad.event {s t : Part} (h : KeepsLoad s t) (on : t.on = true → s.on = true) : KeepsBudget s t where
  toKeepsClaims := h.toKeepsClaims
  limit ok := (limitOk_iff t).2 fun running => h.row ((limitOk_iff s).1 ok (on running))

/-- A part that does not run has no row. -/
theorem KeepsClaims.event_off {s t : Part} (h : KeepsClaims s t) (off : t.on = false) : KeepsBudget s t where
  toKeepsClaims := h
  limit _ := (limitOk_iff t).2 fun running => Bool.noConfusion (off.symm.trans running)

theorem finish_budget {s t : Part} (h : KeepsLoad s t) (on : s.on = true) : KeepsBudget s (finish t) :=
  (h.trans (.finish t)).event fun _ => on

theorem eventIf_budget {test : Bool} {f : Part → Part} {s : Part} (h : KeepsLoad s (f s)) :
    KeepsBudget s (eventIf test f s) := by
  unfold eventIf
  split
  · rename_i due
    exact finish_budget h due.1
  · exact .refl s

theorem onSymbol_budget {p : Port} {f : Part → Part} (s : Part) (h : ∀ t, KeepsLoad t (f t)) :
    KeepsBudget s (onSymbol p f s) := by
  unfold onSymbol
  split
  · exact .refl s
  · rename_i off
    have on : s.on = true := by simpa using off
    split
    · exact finish_budget (.wakeByLine s) on
    · exact finish_budget ((KeepsLoad.hear p s).trans (h _)) on

theorem dispatchIf_budget {test : RxEntry → Bool} {act : RxEntry → Part → Part} (s : Part)
    (h : ∀ e t, KeepsLoad t (act e t)) : KeepsBudget s (dispatchIf test act s) := by
  unfold dispatchIf
  split
  · exact .refl s
  · split
    · rename_i e _ due
      have on : s.on = true := (Bool.and_eq_true_iff.1 due.1).1
      exact finish_budget ((KeepsLoad.takeEntry s).trans (h e _)) on
    · exact .refl s

theorem dispatchOp_budget {op : Nat} {permitted : Part → RxEntry → Bool} {lengthOk : Nat → Bool}
    {carry : Request → Part → Part} (s : Part) (h : ∀ q t, KeepsLoad t (carry q t)) :
    KeepsBudget s (dispatchOp op permitted lengthOk carry s) :=
  dispatchIf_budget s fun e t => .serve h e t

theorem transmitEnd_budget (p : Port) (s : Part) : KeepsBudget s (transmitEnd p s) := by
  unfold transmitEnd
  split
  · exact eventIf_budget (.finishFrame ..)
  all_goals exact .refl s

theorem commitComplete_budget (equal : Bool) (s : Part) : KeepsBudget s (commitComplete equal s) := by
  unfold commitComplete
  split
  · exact .refl s
  · exact eventIf_budget (.completeCommit ..)

theorem refreshExpiry_budget (record : Fin 2) (s : Part) : KeepsBudget s (refreshExpiry record s) := by
  unfold refreshExpiry
  split
  · exact .refl s
  · exact eventIf_budget (.ite (.commandNode ..) (.onLampNode ..))

/-! ### Parts that do not run -/

theorem nodeAgeStep_budget (s : Part) : KeepsBudget s (nodeAgeStep s) := by
  have aged : KeepsLoad s (ageNodes s) := .setNodes ..
  unfold nodeAgeStep
  split
  · rename_i on
    exact finish_budget (aged.trans (.followLink _)) on
  · exact aged.event id

theorem changeLine_budget (l : IgnLine) (high : Bool) (s : Part) : KeepsBudget s (changeLine l high s) := by
  unfold changeLine
  dsimp only
  split
  · exact .refl s
  · have changed : ∀ t, KeepsBudget s
        (s.setPower (s.power.setLine l { s.power.line l with raw := high, timer := t })) := fun t => by
      cases l <;> exact (KeepsLoad.setPower s _ (by rfl) (by rfl) (by rfl)).event id
    exact changed _

theorem debounceExpiry_budget (l : IgnLine) (s : Part) : KeepsBudget s (debounceExpiry l s) := by
  obtain ⟨mode, stage, charging⟩ : (settleLine l s).mode = s.mode ∧ (settleLine l s).on = s.on ∧
      (settleLine l s).power.charging = s.power.charging := by cases l <;> exact ⟨rfl, rfl, rfl⟩
  unfold debounceExpiry
  dsimp only
  split
  · exact .refl s
  · split
    · rename_i off
      exact KeepsClaims.event_off (.of_arbiter rfl) (stage.trans (by simpa using off))
    · rename_i running
      have on : s.on = true := by simpa using running
      split
      · rename_i same
        exact finish_budget ⟨.of_arbiter rfl, rowOk_congr rfl mode same charging rfl⟩ on
      · exact finish_budget (.followIgnition rfl mode rfl) on

theorem supplyStep_budget (v : Nat) (s : Part) : KeepsBudget s (supplyStep v s) := by
  have pushed : KeepsLoad s (pushSample v s) := .setPower s _ rfl rfl rfl
  have browned : KeepsBudget s (brownOut (pushSample v s)) := (KeepsClaims.of_empty rfl).event_off rfl
  have released : KeepsBudget s (releaseReset (pushSample v s)) := (KeepsClaims.of_empty rfl).event_off rfl
  unfold supplyStep
  dsimp only
  split
  · split
    · exact released
    · exact pushed.event id
  · split
    · exact browned
    · exact pushed.event id
  · rename_i running
    split
    · exact browned
    · exact finish_budget (pushed.trans (.followSupply _)) (decide_eq_true running)

theorem nvLoadStep_budget (s : Part) : KeepsBudget s (nvLoadStep s) := by
  have loaded : KeepsClaims s (loadStore s) := .of_arbiter (by unfold loadStore; split <;> rfl)
  have locked : ∀ t : Part, ∀ ports, KeepsLoad t (applyPins { t with ports := ports }) := fun t ports =>
    KeepsLoad.trans (t := { t with ports := ports }) (.of_eq rfl rfl rfl) (.applyPins _)
  have built : ∀ (t : Part) (p : Power), KeepsClaims t ((gaugesFresh (rebuildRecords t)).setPower p) := fun _ _ =>
    .of_arbiter rfl
  unfold nvLoadStep
  split
  · exact ((loaded.trans (locked _ _).toKeepsClaims).trans (built _ _)).event_off rfl
  · exact .refl s

theorem KeepsLoad.startConds (s : Part) : KeepsLoad s (startConds s) := by
  have marked := KeepsLoad.foldl (f := fun (t : Part) (x : Cond × Bool) => t.markActive x.1 x.2)
    (fun _ _ => .of_eq rfl rfl rfl) (levelCauses s) s
  have flags : ∀ t : Part, KeepsLoad t { t with mgmt := { t.mgmt with changed := 0, owed := false } } := fun _ =>
    .of_eq rfl rfl rfl
  exact marked.trans (flags _)

/-- The start stage brings the limit to its row (09: R153). -/
theorem startStep_budget (s : Part) : KeepsBudget s (startStep s) := by
  have started : ∀ p, KeepsBudget s
      (finish (startConds (handMode .held ((s.setPower p).markActive .lowSupply (s.supply < 900))))) := fun p => by
    have same : KeepsClaims s ((s.setPower p).markActive .lowSupply (s.supply < 900)) := .of_arbiter rfl
    have rest := fun t => (KeepsLoad.startConds t).trans (.finish _)
    exact ⟨(KeepsLoad.handMode .held same).toKeepsClaims.trans (rest _).toKeepsClaims,
      fun _ => (limitOk_iff _).2 fun _ => (rest _).row (handMode_row _ _)⟩
  unfold startStep
  split
  · exact started _
  · exact .refl s

theorem tickPart_budget (s : Part) : KeepsBudget s (tickPart s) := by
  unfold tickPart
  split
  · exact .refl s
  · exact KeepsLoad.event ⟨.of_arbiter rfl, rowOk_congr rfl rfl rfl rfl rfl⟩ id

/-! ### Every command -/

theorem nextPart_budget {s t : State} {p : Part} (h : KeepsBudget s.part p) (next : s.nextPart p = .next t) :
    KeepsBudget s.part t.part := by
  cases next
  exact h

theorem exec_budget (i : Instr) {s t : State} (next : exec i s = .next t) : KeepsBudget s.part t.part := by
  cases i with
  | startSymbol p => exact nextPart_budget (onSymbol_budget _ (.onStart p)) next
  | dataSymbol p n => exact nextPart_budget (onSymbol_budget _ (.onData p n)) next
  | endSymbol p => exact nextPart_budget (onSymbol_budget _ (.onEnd p)) next
  | abortSymbol p => exact nextPart_budget (onSymbol_budget _ (.onBreak p)) next
  | fillSymbol p => exact nextPart_budget (onSymbol_budget _ (.onBreak p)) next
  | portQuiet p => exact nextPart_budget (eventIf_budget (.onQuiet p _)) next
  | lineActivity p => exact nextPart_budget (eventIf_budget (.wakeByLine _)) next
  | transmitStart p => exact nextPart_budget (eventIf_budget (.chooseFrame p _)) next
  | transmitEnd p => exact nextPart_budget (transmitEnd_budget p _) next
  | relayAgeOut p => exact nextPart_budget (eventIf_budget (.ageOut p _)) next
  | nodeAgeStep => exact nextPart_budget (nodeAgeStep_budget _) next
  | duplicateClear n => exact nextPart_budget (eventIf_budget (.clearDuplicate n _)) next
  | ownNumberTimerExpiry => exact nextPart_budget (eventIf_budget (.stopOwnTimer _)) next
  | switchState => exact nextPart_budget (dispatchIf_budget _ fun _ _ => .switchReport ..) next
  | senderReport => exact nextPart_budget (dispatchIf_budget _ fun _ _ => .reportGauges ..) next
  | lampStatus => exact nextPart_budget (dispatchIf_budget _ fun _ _ => .lampReport ..) next
  | unknownKind => exact nextPart_budget (dispatchIf_budget _ fun _ _ => .count ..) next
  | read => exact nextPart_budget (dispatchOp_budget _ .doRead) next
  | select => exact nextPart_budget (dispatchOp_budget _ .doSelect) next
  | readNext => exact nextPart_budget (dispatchOp_budget _ .doReadNext) next
  | write => exact nextPart_budget (dispatchOp_budget _ fun _ _ => .doWriteAt ..) next
  | writeNext => exact nextPart_budget (dispatchOp_budget _ fun _ _ => .doWriteAt ..) next
  | hold => exact nextPart_budget (dispatchOp_budget _ .doHold) next
  | release => exact nextPart_budget (dispatchOp_budget _ .doRelease) next
  | commit => exact nextPart_budget (dispatchOp_budget _ .doCommit) next
  | sleep => exact nextPart_budget (dispatchOp_budget _ .doSleep) next
  | assign => exact nextPart_budget (dispatchOp_budget _ .doAssign) next
  | reframe => exact nextPart_budget (dispatchOp_budget _ .doReframe) next
  | clear => exact nextPart_budget (dispatchOp_budget _ .doClear) next
  | clearCounters => exact nextPart_budget (dispatchOp_budget _ .doClearCounters) next
  | commitComplete equal => exact nextPart_budget (commitComplete_budget equal _) next
  | sampleClock lamps fan => exact nextPart_budget (eventIf_budget (.sampleStep ..)) next
  | flashSample lamps => exact nextPart_budget (eventIf_budget (.flashSampleStep ..)) next
  | overloadLevelCrossing l i => exact nextPart_budget (eventIf_budget (.crossLevel ..)) next
  | overload l => exact nextPart_budget (eventIf_budget (.overloadChan ..)) next
  | shortTrip l => exact nextPart_budget (eventIf_budget (.shortChan ..)) next
  | retryTimerExpiry ch => exact nextPart_budget (eventIf_budget (.retryChan ..)) next
  | refreshTimerExpiry r => exact nextPart_budget (refreshExpiry_budget r _) next
  | onPhaseEdge => exact nextPart_budget (eventIf_budget (.onPhaseEdge _)) next
  | offPhaseEdge => exact nextPart_budget (eventIf_budget (.offPhaseEdge _)) next
  | rampStep => exact nextPart_budget (eventIf_budget (.fanStep _)) next
  | stall i => exact nextPart_budget (eventIf_budget (.sampleFan i _)) next
  | stallWaitExpiry => exact nextPart_budget (eventIf_budget (.endStallWait _)) next
  | fanOverloadLevelCrossing i => exact nextPart_budget (eventIf_budget (.crossFanLevel ..)) next
  | fanOverload => exact nextPart_budget (eventIf_budget (.overloadFan _)) next
  | gaugeTick => exact nextPart_budget (eventIf_budget (.tickGauges _)) next
  | parkRampEnd g => exact nextPart_budget (eventIf_budget (.lastRampTick g _)) next
  | ignitionLineChange l high => exact nextPart_budget (changeLine_budget l high _) next
  | ignitionDebounceExpiry l => exact nextPart_budget (debounceExpiry_budget l _) next
  | supplySample v => exact nextPart_budget (supplyStep_budget v _) next
  | nvLoad => exact nextPart_budget (nvLoadStep_budget _) next
  | powerOnStart => exact nextPart_budget (startStep_budget _) next
  | settlingExpiry => exact nextPart_budget (eventIf_budget (.settleReference _)) next
  | idleExpiry => exact nextPart_budget (eventIf_budget (.beginDeferral _)) next
  | dormantEntry => exact nextPart_budget (eventIf_budget (.enterDormant _)) next
  | quietEntry => exact nextPart_budget (eventIf_budget (.enterQuiet _)) next
  | unknownOp => exact nextPart_budget (dispatchIf_budget _ fun _ _ => .serveUnknown ..) next

/-- A step is a command or a tick. -/
theorem step_budget {s t : State} (next : step s = .next t) : KeepsBudget s.part t.part := by
  unfold step at next
  split at next
  · exact nextPart_budget (tickPart_budget _) next
  · rename_i c rest _
    exact exec_budget (s := { s with pending := rest }) c next

/-- Settles O6, the laws of budget and claims being a part of what every event keeps. -/
theorem stepKeepsBudgetLaw : Obligations.StepKeepsBudgetLaw :=
  ⟨fun _ _ ok next => (step_budget next).budget ok, fun _ _ ok next => (step_budget next).claims ok⟩

/-- Settles O48, the limit of a running part being a part of what every event keeps. -/
theorem stepKeepsLimitRow : Obligations.StepKeepsLimitRow := fun _ _ ok next => (step_budget next).limit ok

/-! ### Reset -/

/-- Settles O5: right after reset nothing is granted, waiting, driven, learned or queued, and the part does not run. -/
theorem lawsHoldAtReset : Obligations.LawsHoldAtReset := by
  have undriven : ∀ g, (State.reset.part.gauge g).state.driven = false := fun g =>
    congrArg (fun r => r.state.driven) (tab_get (fun k => Gauge.parkedAt (defaultGauge k)) g)
  have off : State.reset.part.on = false := rfl
  have idle : ∀ p, State.reset.part.rxPlaces p = 0 ∧ State.reset.part.relayPlaces p = 0 ∧
      State.reset.part.ownQ p = [] := fun p => by cases p <;> exact ⟨rfl, rfl, rfl⟩
  obtain ⟨budget, claims⟩ := empty_laws (s := State.reset.part) rfl
  refine ⟨budget, ⟨fun _ => rfl, fun _ => undriven⟩, fun on => ?_, ?_, fun p => ?_, claims⟩
  · exact Bool.noConfusion (off.symm.trans on)
  · exact ⟨Nat.zero_le _, .nil, fun _ known => (List.not_mem_nil known).elim, fun _ => rfl⟩
  · obtain ⟨rx, relay, own⟩ := idle p
    rw [rx, relay, own]
    exact ⟨Nat.zero_le _, Nat.zero_le _, Nat.zero_le _⟩

end Sys2Proof.Machine
end

section
/-! The sheds of a fall of the limit (05: R91, R92): which channels they take, in which order, and what that leaves of
the grants and of the claim queue. -/

namespace Sys2Proof.Machine

/-! ### One shed -/

theorem commandNode_fan (s : Part) (n : Nat) : (commandNode s n).fan = s.fan := by
  unfold commandNode
  split
  · rfl
  · split
    · rfl
    · exact (FlagsOnly.originate _ _ s).outputs.2.2.2.1

theorem settleLights_fan (s : Part) : (settleLights s).fan = s.fan := by
  have commands : ∀ (ns : List Nat) (t : Part), (ns.foldl commandNode t).fan = t.fan := by
    intro ns
    induction ns with
    | nil => exact fun _ => rfl
    | cons n ns ih => exact fun t => (ih _).trans (commandNode_fan t n)
  have start : (flashStart s).fan = s.fan := by unfold flashStart; split <;> rfl
  exact (commands _ _).trans start

/-- A shed fan keeps its target (R125). -/
theorem handShed_target (ch : Fin 25) (s : Part) : (handShed ch s).fan.target = s.fan.target := by
  unfold handShed
  split
  · exact congrArg Fan.target (settleLights_fan _)
  · exact congrArg Fan.target (settleLights_fan _)
  · rfl
  · unfold gaugeShed
    split <;> rfl

theorem Leaves.handShed {k ch : Fin 25} (s : Part) (other : k ≠ ch) : Leaves ch s (handShed k s) := by
  have lamp : Leaves ch s (Machine.settleLights
      (s.setChan k { s.chan k with state := .shed, bulbOut := false, measured := 0 })) :=
    (Leaves.setChan s _ other).trans (.settleLights _)
  unfold Machine.handShed
  split
  · exact lamp
  · exact lamp
  · exact .setFan ..
  · rename_i g kind
    have away : gaugeChan g ≠ ch := by rw [kindOf_gauge kind]; exact other
    unfold gaugeShed
    split
    · exact .setGauge s _ away
    · exact .setGauge s _ away
    · exact .setGauge s _ away
    · exact .setGauge s _ away
    · exact .refl ch s
    · exact .refl ch s

/-- The claim a shed channel comes to wait with (R92). -/
def Part.shedClaim (s : Part) (ch : Fin 25) : Claim :=
  { chan := ch, amount := s.shedAmount ch, cls := s.classOf ch, shed := true }

/-- The claim queue a shed of a channel makes of another (R92). -/
def Part.shedInto (s : Part) (cs : List Claim) (ch : Fin 25) : List Claim :=
  if s.shedClaimStays ch then insertClaim (s.shedClaim ch) (cs.filter fun c => c.chan != ch)
  else cs.filter fun c => c.chan != ch

theorem shedOne_arbiter_eq (ch : Fin 25) (s : Part) :
    (shedOne ch s).arbiter = { s.arbiter.vacate ch with claims := s.shedInto s.arbiter.claims ch } :=
  handShed_arbiter ch _

theorem shedOne_tables (ch : Fin 25) (s : Part) : (shedOne ch s).tables = s.tables :=
  (Reaction.shedOne ch s).still.tables

theorem vacate_order (a : Arbiter) (ch : Fin 25) : (a.vacate ch).order = a.order.filter (· != ch) := by
  simp [Arbiter.vacate, Arbiter.lower, Arbiter.unclaim]

/-! ### The order of the sheds -/

/-- The holders in the order in which sheds take them: by class, within a class the latest grant first (R91). -/
def Part.shedOrder (s : Part) : List (Fin 25) :=
  (s.arbiter.order.filter (s.classOf · == .comfort)).reverse ++
    ((s.arbiter.order.filter (s.classOf · == .gauge)).reverse ++
      (s.arbiter.order.filter (s.classOf · == .safety)).reverse)

theorem victim_eq_head (s : Part) : s.victim = s.shedOrder.head? := by
  simp only [Part.victim, Part.latestOf, Part.shedOrder, List.head?_append, List.head?_reverse]
  cases (s.arbiter.order.filter (s.classOf · == .comfort)).getLast? <;>
    cases (s.arbiter.order.filter (s.classOf · == .gauge)).getLast? <;> rfl

theorem mem_shedOrder {s : Part} {ch : Fin 25} : ch ∈ s.shedOrder ↔ ch ∈ s.arbiter.order := by
  unfold Part.shedOrder
  cases h : s.classOf ch <;> simp [h]

theorem shedOrder_nodup {s : Part} (order : s.arbiter.order.Nodup) : s.shedOrder.Nodup := by
  have part : ∀ c, (s.arbiter.order.filter (s.classOf · == c)).reverse.Nodup := fun c =>
    List.nodup_reverse.2 (order.filter _)
  have apart : ∀ c d, c ≠ d → List.Disjoint (s.arbiter.order.filter (s.classOf · == c)).reverse
      (s.arbiter.order.filter (s.classOf · == d)).reverse := by
    intro c d other k hc hd
    simp only [List.mem_reverse, List.mem_filter, beq_iff_eq] at hc hd
    exact other (hc.2.symm.trans hd.2)
  refine (part _).append ((part _).append (part _) (apart _ _ (by decide))) ?_
  exact List.disjoint_append_right.2 ⟨apart _ _ (by decide), apart _ _ (by decide)⟩

theorem classOf_tables {s t : Part} (tables : t.tables = s.tables) : t.classOf = s.classOf := by
  funext ch
  unfold Part.classOf Part.chanCfg
  rw [tables]

theorem shedOne_shedOrder (ch : Fin 25) (s : Part) : (shedOne ch s).shedOrder = s.shedOrder.filter (· != ch) := by
  have order : (shedOne ch s).arbiter.order = s.arbiter.order.filter (· != ch) := by
    rw [shedOne_arbiter_eq]
    exact vacate_order s.arbiter ch
  have swap : ∀ c, ((s.arbiter.order.filter (· != ch)).filter (s.classOf · == c)).reverse =
      (s.arbiter.order.filter (s.classOf · == c)).reverse.filter (· != ch) := fun c => by
    rw [List.filter_comm, List.filter_reverse]
  unfold Part.shedOrder
  rw [classOf_tables (shedOne_tables ch s), order, swap, swap, swap, List.filter_append, List.filter_append]

/-- The channels of a list shed in turn. -/
def shedAll (vs : List (Fin 25)) (s : Part) : Part := vs.foldl (fun t ch => shedOne ch t) s

theorem shedAll_snoc (vs : List (Fin 25)) (ch : Fin 25) (s : Part) :
    shedAll (vs ++ [ch]) s = shedOne ch (shedAll vs s) := List.foldl_append

/-- Sheds take the holders from the front of the shed order on (R91). -/
theorem shedSome_eq_shedAll (n : Nat) (s : Part) (order : s.arbiter.order.Nodup) :
    ∃ vs, vs <+: s.shedOrder ∧ shedSome n s = shedAll vs s := by
  induction n generalizing s with
  | zero => exact ⟨[], ⟨_, rfl⟩, rfl⟩
  | succ n ih =>
    unfold shedSome
    split
    · exact ⟨[], ⟨_, rfl⟩, rfl⟩
    · rw [victim_eq_head]
      cases here : s.shedOrder with
      | nil => exact ⟨[], ⟨_, rfl⟩, rfl⟩
      | cons ch rest =>
        have nodup := shedOrder_nodup order
        rw [here, List.nodup_cons] at nodup
        have tail : (shedOne ch s).shedOrder = rest := by
          rw [shedOne_shedOrder, here, List.filter_cons_of_neg (by simp)]
          exact List.filter_eq_self.2 fun k hk => bne_iff_ne.2 fun same => nodup.1 (same ▸ hk)
        have left : (shedOne ch s).arbiter.order.Nodup := by
          rw [shedOne_arbiter_eq]
          show (s.arbiter.vacate ch).order.Nodup
          rw [vacate_order]
          exact order.filter _
        obtain ⟨vs, ⟨behind, front⟩, shed⟩ := ih (shedOne ch s) left
        rw [tail] at front
        exact ⟨ch :: vs, ⟨behind, congrArg (List.cons ch) front⟩, shed⟩

/-- A channel before another in a list without repetition stands in each front part that holds the other, before it. -/
theorem pair_sublist_of_front {α : Type} {a b : α} {xs ys : List α} (front : xs <+: ys) (nodup : ys.Nodup)
    (before : [a, b].Sublist ys) (mem : b ∈ xs) : [a, b].Sublist xs := by
  obtain ⟨zs, rfl⟩ := front
  obtain ⟨l, r, pair, left, right⟩ := List.sublist_append_iff.1 before
  have apart := (List.nodup_append'.1 nodup).2.2
  have none : b ∉ r := fun hb => apart mem (right.subset hb)
  cases r using List.reverseRecOn with
  | nil => rw [List.append_nil] at pair; rw [pair]; exact left
  | append_singleton r c =>
    have last : b = c := by simpa using congrArg List.getLast? pair
    exact absurd (List.mem_append_right r (List.mem_singleton.2 last)) none

theorem classes_below {c d : Class} (lower : Class.rank c < Class.rank d) :
    (c = .safety ∧ d = .gauge) ∨ (c = .safety ∧ d = .comfort) ∨ (c = .gauge ∧ d = .comfort) := by
  revert lower
  cases c <;> cases d <;> decide

theorem rank_pos {c : Class} (other : c ≠ .safety) : 0 < Class.rank c := by
  cases c with
  | safety => exact absurd rfl other
  | gauge => decide
  | comfort => decide

theorem shedOrder_class {s : Part} {k ch : Fin 25} (hk : k ∈ s.arbiter.order) (hch : ch ∈ s.arbiter.order)
    (lower : Class.rank (s.classOf ch) < Class.rank (s.classOf k)) : [k, ch].Sublist s.shedOrder := by
  have one : ∀ {c j}, j ∈ s.arbiter.order → s.classOf j = c →
      [j].Sublist (s.arbiter.order.filter (s.classOf · == c)).reverse := fun hj cls =>
    List.singleton_sublist.2 (List.mem_reverse.2 (List.mem_filter.2 ⟨hj, beq_iff_eq.2 cls⟩))
  unfold Part.shedOrder
  rcases classes_below lower with ⟨ec, ek⟩ | ⟨ec, ek⟩ | ⟨ec, ek⟩
  · exact List.sublist_append_of_sublist_right ((one hk ek).append (one hch ec))
  · exact (one hk ek).append (List.sublist_append_of_sublist_right (one hch ec))
  · exact (one hk ek).append (List.sublist_append_of_sublist_left (one hch ec))

theorem shedOrder_latest {s : Part} {k ch : Fin 25} (later : [ch, k].Sublist s.arbiter.order)
    (same : s.classOf k = s.classOf ch) : [k, ch].Sublist s.shedOrder := by
  have kept : ∀ c, s.classOf ch = c → [k, ch].Sublist (s.arbiter.order.filter (s.classOf · == c)).reverse := by
    rintro c rfl
    have := (later.filter (s.classOf · == s.classOf ch)).reverse
    rwa [List.filter_eq_self.2 (by simp [same])] at this
  unfold Part.shedOrder
  cases e : s.classOf ch with
  | comfort => exact List.sublist_append_of_sublist_left (kept _ e)
  | gauge => exact List.sublist_append_of_sublist_right (List.sublist_append_of_sublist_left (kept _ e))
  | safety => exact List.sublist_append_of_sublist_right (List.sublist_append_of_sublist_right (kept _ e))

/-! ### What sheds leave -/

/-- What the sheds of some channels leave and make. -/
structure Shed (vs : List (Fin 25)) (s t : Part) : Prop where
  tables : t.tables = s.tables
  limit : t.arbiter.limit = s.arbiter.limit
  target : t.fan.target = s.fan.target
  gauge : ∀ g, gaugeChan g ∉ vs → t.gauge g = s.gauge g
  grant : ∀ ch, t.grant ch = if ch ∈ vs then 0 else s.grant ch
  claims : t.arbiter.claims = vs.foldl s.shedInto s.arbiter.claims

theorem firstClaim_congr {s t : Part} (tables : t.tables = s.tables) (limit : t.arbiter.limit = s.arbiter.limit)
    (target : Nat) : t.firstClaim target = s.firstClaim target := by
  unfold Part.firstClaim Part.decomposed
  rw [tables, limit]

theorem shedClaimStays_iff (s : Part) (ch : Fin 25) : s.shedClaimStays ch = true ↔
    ¬ ∃ g, ch = gaugeChan g ∧ ((s.gauge g).state = .lost ∨ (s.gauge g).state = .parking) := by
  unfold Part.shedClaimStays
  split
  · rename_i g kind
    obtain rfl := kindOf_gauge kind
    constructor
    · rintro stays ⟨k, e, idle⟩
      obtain rfl := gaugeChan_inj e
      rcases idle with h | h <;> simp [h] at stays
    · intro driven
      rw [Bool.and_eq_true, bne_iff_ne, bne_iff_ne]
      exact ⟨fun h => driven ⟨g, rfl, .inl h⟩, fun h => driven ⟨g, rfl, .inr h⟩⟩
  all_goals
    rename_i kind
    refine iff_of_true rfl ?_
    rintro ⟨g, rfl, -⟩
    rw [kindOf_gaugeChan] at kind
    cases kind

namespace Shed

theorem shedInto {vs : List (Fin 25)} {s t : Part} (h : Shed vs s t) {ch : Fin 25} (fresh : ch ∉ vs)
    (cs : List Claim) : t.shedInto cs ch = s.shedInto cs ch := by
  have stays : t.shedClaimStays ch = s.shedClaimStays ch := by
    unfold Part.shedClaimStays
    split
    · rename_i g kind
      rw [h.gauge g (by rw [kindOf_gauge kind]; exact fresh)]
    all_goals rfl
  have amount : t.shedAmount ch = s.shedAmount ch := by
    unfold Part.shedAmount
    rw [h.target, firstClaim_congr h.tables h.limit, nominal_tables h.tables]
  unfold Part.shedInto Part.shedClaim
  rw [stays, amount, classOf_tables h.tables]

theorem snoc {vs : List (Fin 25)} {s t : Part} (h : Shed vs s t) {ch : Fin 25} (fresh : ch ∉ vs) :
    Shed (vs ++ [ch]) s (shedOne ch t) where
  tables := (shedOne_tables ch t).trans h.tables
  limit := by rw [shedOne_arbiter_eq]; exact h.limit
  target := (handShed_target ch _).trans h.target
  gauge g out := by
    rw [List.mem_append, List.mem_singleton, not_or] at out
    exact ((Leaves.handShed _ (Ne.symm out.2)).gauge g rfl).trans (h.gauge g out.1)
  grant k := by
    have own : (shedOne ch t).grant k = if ch = k then 0 else t.grant k := by
      unfold Part.grant
      rw [shedOne_arbiter_eq]
      exact vacate_grants ..
    rw [own, h.grant]
    by_cases e : ch = k
    · simp [e]
    · simp [e, Ne.symm e]
  claims := by
    rw [shedOne_arbiter_eq, List.foldl_append, List.foldl_cons, List.foldl_nil, ← h.claims]
    exact h.shedInto fresh _

end Shed

theorem shedAll_shed (s : Part) {vs : List (Fin 25)} (nodup : vs.Nodup) : Shed vs s (shedAll vs s) := by
  induction vs using List.reverseRecOn with
  | nil => exact ⟨rfl, rfl, rfl, fun _ _ => rfl, fun _ => rfl, rfl⟩
  | append_singleton vs ch ih =>
    obtain ⟨front, -, apart⟩ := List.nodup_append'.1 nodup
    rw [shedAll_snoc]
    exact (ih front).snoc fun mem => apart mem (List.mem_singleton_self ch)

end Sys2Proof.Machine
end

section
/-! The claim queue through a run of sheds, and the sheds of a fall of the limit (05: R91, R92). -/

namespace Sys2Proof.Machine

/-! ### Places in the queue -/

/-- A list splits at two elements of which one stands before the other. -/
theorem pair_sublist_split {α : Type} {a b : α} {cs : List α} (before : [a, b].Sublist cs) :
    ∃ x y z, cs = x ++ a :: y ++ b :: z := by
  obtain ⟨front, back, rfl, first, second⟩ := List.cons_sublist_iff.1 before
  obtain ⟨x, y, rfl⟩ := List.append_of_mem first
  obtain ⟨y', z, rfl⟩ := List.append_of_mem (List.singleton_sublist.1 second)
  exact ⟨x, y ++ y', z, by simp⟩

theorem pair_sublist_of_split {α : Type} {a b : α} (x y z : List α) : [a, b].Sublist (x ++ a :: y ++ b :: z) := by
  rw [List.append_assoc]
  refine List.sublist_append_of_sublist_right (.cons_cons a ?_)
  exact List.sublist_append_of_sublist_right (.cons_cons b (List.nil_sublist z))

theorem sublist_insertClaim (c : Claim) (cs : List Claim) : cs.Sublist (insertClaim c cs) := by
  induction cs with
  | nil => exact List.nil_sublist _
  | cons x xs ih =>
    unfold insertClaim
    split
    · exact List.sublist_cons_self c _
    · exact .cons_cons x ih

/-- A claim joins behind every claim that stands no later by class and standing (R86). -/
theorem insertClaim_behind {a c : Claim} {cs : List Claim} (sorted : cs.Pairwise fun x y => x.key ≤ y.key)
    (mem : a ∈ cs) (le : a.key ≤ c.key) : [a, c].Sublist (insertClaim c cs) := by
  induction cs with
  | nil => cases mem
  | cons x xs ih =>
    obtain ⟨head, tail⟩ := List.pairwise_cons.1 sorted
    have low : x.key ≤ c.key := by
      rcases List.mem_cons.1 mem with rfl | inside
      · exact le
      · exact Nat.le_trans (head a inside) le
    unfold insertClaim
    rw [if_neg (Nat.not_lt.2 low)]
    rcases List.mem_cons.1 mem with rfl | inside
    · exact .cons_cons a (List.singleton_sublist.2 ((insertClaim_perm c xs).mem_iff.2 List.mem_cons_self))
    · exact .cons x (ih tail inside)

/-! ### The queue at one shed -/

section
variable (s : Part)

theorem shedInto_filter {p : Claim → Bool} {ch : Fin 25} (out : ∀ c, c.chan = ch → p c = false) (cs : List Claim) :
    (s.shedInto cs ch).filter p = cs.filter p := by
  have kept : (cs.filter fun c => c.chan != ch).filter p = cs.filter p := by
    rw [List.filter_filter]
    refine List.filter_congr fun c _ => ?_
    by_cases e : c.chan = ch
    · simp [out c e]
    · simp [e]
  unfold Part.shedInto
  split
  · rw [insertClaim_filter (out (s.shedClaim ch) rfl), kept]
  · exact kept

theorem shedInto_own (cs : List Claim) (ch : Fin 25) : (s.shedInto cs ch).filter (·.chan == ch) =
    if s.shedClaimStays ch then [s.shedClaim ch] else [] := by
  have gone : (cs.filter fun c => c.chan != ch).filter (·.chan == ch) = [] :=
    List.filter_eq_nil_iff.2 fun c hc => by simpa using (List.mem_filter.1 hc).2
  unfold Part.shedInto
  split
  · exact insertClaim_own (c := s.shedClaim ch) gone
  · exact gone

theorem shedInto_sublist {cs ds : List Claim} {ch : Fin 25} (sub : ds.Sublist cs) (away : ∀ c ∈ ds, c.chan ≠ ch) :
    ds.Sublist (s.shedInto cs ch) := by
  have kept : ds.Sublist (cs.filter fun c => c.chan != ch) := by
    have := sub.filter fun c => c.chan != ch
    rwa [List.filter_eq_self.2 fun c hc => bne_iff_ne.2 (away c hc)] at this
  unfold Part.shedInto
  split
  · exact kept.trans (sublist_insertClaim _ _)
  · exact kept

theorem shedInto_inClaimOrder {cs : List Claim} (h : inClaimOrder cs) (ch : Fin 25) :
    inClaimOrder (s.shedInto cs ch) := by
  have kept := inClaimOrder_filter cs (fun c => c.chan != ch) h
  unfold Part.shedInto
  split
  · exact insertClaim_inClaimOrder _ _ kept fun c hc => bne_iff_ne.1 (List.mem_filter.1 hc).2
  · exact kept

/-- A shed channel waits behind the other claims that stand no later by class and standing (R92). -/
theorem shedInto_behind {a : Claim} {cs : List Claim} {ch : Fin 25} (h : inClaimOrder cs) (mem : a ∈ cs)
    (other : a.chan ≠ ch) (stays : s.shedClaimStays ch = true) (le : a.key ≤ (s.shedClaim ch).key) :
    [a, s.shedClaim ch].Sublist (s.shedInto cs ch) := by
  unfold Part.shedInto
  rw [if_pos stays]
  exact insertClaim_behind (inClaimOrder_filter cs _ h).1 (List.mem_filter.2 ⟨mem, bne_iff_ne.2 other⟩) le

/-! ### The queue at a run of sheds -/

theorem shedsInto_filter {p : Claim → Bool} {vs : List (Fin 25)} (out : ∀ c, c.chan ∈ vs → p c = false)
    (cs : List Claim) : (vs.foldl s.shedInto cs).filter p = cs.filter p := by
  induction vs generalizing cs with
  | nil => rfl
  | cons v vs ih =>
    rw [List.foldl_cons, ih fun c hc => out c (List.mem_cons_of_mem v hc)]
    exact shedInto_filter s (fun c e => out c (e ▸ List.mem_cons_self)) cs

theorem shedsInto_sublist {vs : List (Fin 25)} {cs ds : List Claim} (sub : ds.Sublist cs)
    (away : ∀ c ∈ ds, c.chan ∉ vs) : ds.Sublist (vs.foldl s.shedInto cs) := by
  induction vs generalizing cs with
  | nil => exact sub
  | cons v vs ih =>
    exact ih (shedInto_sublist s sub fun c hc e => away c hc (e ▸ List.mem_cons_self))
      fun c hc mem => away c hc (List.mem_cons_of_mem v mem)

theorem shedsInto_inClaimOrder {cs : List Claim} (h : inClaimOrder cs) (vs : List (Fin 25)) :
    inClaimOrder (vs.foldl s.shedInto cs) := by
  induction vs generalizing cs with
  | nil => exact h
  | cons v vs ih => exact ih (shedInto_inClaimOrder s h v)

theorem shedsInto_own {vs : List (Fin 25)} (nodup : vs.Nodup) {ch : Fin 25} (mem : ch ∈ vs) (cs : List Claim) :
    (vs.foldl s.shedInto cs).filter (·.chan == ch) = if s.shedClaimStays ch then [s.shedClaim ch] else [] := by
  obtain ⟨xs, ys, rfl⟩ := List.append_of_mem mem
  obtain ⟨-, tail, -⟩ := List.nodup_append'.1 nodup
  rw [List.foldl_append, List.foldl_cons, shedsInto_filter s (vs := ys), shedInto_own]
  rintro c later
  exact beq_eq_false_iff_ne.2 fun e => (List.nodup_cons.1 tail).1 (e ▸ later)

/-- A claim that waits when a channel is shed, and is not itself taken then or later, stands before that channel's
claim at the end, if it stands no later by class and standing (R92). -/
theorem shedsInto_behind {xs ys : List (Fin 25)} {ch : Fin 25} {a : Claim} {cs : List Claim} (h : inClaimOrder cs)
    (mem : a ∈ xs.foldl s.shedInto cs) (other : a.chan ≠ ch) (left : a.chan ∉ ys) (last : ch ∉ ys)
    (stays : s.shedClaimStays ch = true) (le : a.key ≤ (s.shedClaim ch).key) :
    [a, s.shedClaim ch].Sublist ((xs ++ ch :: ys).foldl s.shedInto cs) := by
  rw [List.foldl_append, List.foldl_cons]
  refine shedsInto_sublist s (shedInto_behind s (shedsInto_inClaimOrder s h xs) mem other stays le) fun c hc => ?_
  simp only [List.mem_cons, List.not_mem_nil, or_false] at hc
  rcases hc with rfl | rfl
  · exact left
  · exact last

end

/-! ### A fall of the limit -/

/-- A part with another limit in force, before anything is shed or granted for it. -/
def Part.limited (s : Part) (new : Nat) : Part := s.setArbiter { s.arbiter with limit := new }

theorem Shed.of_flags {vs : List (Fin 25)} {s t u : Part} (h : Shed vs s t) (flags : FlagsOnly t u)
    (tables : u.tables = t.tables) : Shed vs s u := by
  obtain ⟨-, arbiter, -, fan, gauges⟩ := flags.outputs
  refine ⟨tables.trans h.tables, by rw [arbiter]; exact h.limit, by rw [fan]; exact h.target, fun g out => ?_,
    fun ch => ?_, by rw [arbiter]; exact h.claims⟩
  · unfold Part.gauge
    rw [gauges]
    exact h.gauge g out
  · unfold Part.grant
    rw [arbiter]
    exact h.grant ch

theorem setLimit_fall {s : Part} {new : Nat} (fall : new < s.arbiter.limit) :
    setLimit new s = syncConds (shedSome s.arbiter.order.length (s.limited new)) := by
  unfold setLimit
  rw [if_neg (Nat.ne_of_lt fall)]
  exact congrArg syncConds (if_neg (Nat.not_lt.2 (Nat.le_of_lt fall)))

theorem setLimit_rise {s : Part} {new : Nat} (rise : s.arbiter.limit < new) :
    setLimit new s = syncConds (grantPass (s.limited new)) := by
  unfold setLimit
  rw [if_neg (Nat.ne_of_gt rise)]
  exact congrArg syncConds (if_pos rise)

theorem setLimit_shed {s : Part} {new : Nat} (fall : new < s.arbiter.limit) (order : s.arbiter.order.Nodup) :
    ∃ vs, vs <+: s.shedOrder ∧ Shed vs (s.limited new) (setLimit new s) := by
  obtain ⟨vs, front, sheds⟩ := shedSome_eq_shedAll s.arbiter.order.length (s.limited new) order
  have front' : vs <+: s.shedOrder := front
  have nodup : vs.Nodup := (shedOrder_nodup order).sublist front'.sublist
  refine ⟨vs, front', ?_⟩
  rw [setLimit_fall fall, sheds]
  exact (shedAll_shed _ nodup).of_flags (.syncConds _) (Reaction.syncConds _).still.tables

theorem setLimit_fall_committed {s : Part} {new : Nat} (fall : new < s.arbiter.limit) (budget : s.budgetOk) :
    (setLimit new s).committed ≤ new := by
  obtain ⟨⟨fits, -⟩, limit⟩ := shedSome_budget s.arbiter.order.length (s.limited new) (Nat.le_refl _) budget.2
  rw [limit] at fits
  rw [setLimit_fall fall]
  unfold Part.committed
  rw [(FlagsOnly.syncConds _).outputs.2.1]
  exact fits

/-! ### Channels shed at a fall -/

section
variable {s t : Part} {new : Nat} {vs : List (Fin 25)} {ch k : Fin 25}

theorem Shed.grant_or (h : Shed vs (s.limited new) t) (ch : Fin 25) : t.grant ch = s.grant ch ∨ t.grant ch = 0 := by
  rw [h.grant ch]
  split
  · exact .inr rfl
  · exact .inl rfl

theorem Shed.mem_of_lost (h : Shed vs (s.limited new) t) (held : 0 < s.grant ch) (lost : t.grant ch = 0) :
    ch ∈ vs := by
  by_contra out
  have same : t.grant ch = s.grant ch := (h.grant ch).trans (if_neg out)
  omega

/-- A channel that comes before a lost one in the shed order keeps no grant. -/
theorem Shed.grant_before (h : Shed vs (s.limited new) t) (front : vs <+: s.shedOrder) (budget : s.budgetOk)
    (order : s.arbiter.order.Nodup) (held : 0 < s.grant ch) (lost : t.grant ch = 0)
    (before : k ∈ s.arbiter.order → ch ∈ s.arbiter.order → [k, ch].Sublist s.shedOrder) : t.grant k = 0 := by
  by_cases mem : k ∈ s.arbiter.order
  · have pair := pair_sublist_of_front front (shedOrder_nodup order) (before mem (budget.2 ch held))
      (h.mem_of_lost held lost)
    rw [h.grant k, if_pos (pair.subset List.mem_cons_self)]
  · have none : s.grant k = 0 := Nat.eq_zero_of_not_pos fun pos => mem (budget.2 k pos)
    rcases h.grant_or k with same | zero
    · rw [same, none]
    · exact zero

theorem Shed.kept_iff (h : Shed vs (s.limited new) t) (front : vs <+: s.shedOrder)
    (holders : ∀ ch ∈ s.arbiter.order, 0 < s.grant ch) : t.grant ch = s.grant ch ↔ ch ∉ vs := by
  rw [h.grant ch]
  refine ⟨fun same mem => ?_, fun out => if_neg out⟩
  have held := holders ch (mem_shedOrder.1 (front.subset mem))
  rw [if_pos mem] at same
  omega

theorem Shed.claimOf (h : Shed vs (s.limited new) t) (nodup : vs.Nodup) (mem : ch ∈ vs) :
    t.claimOf ch = if (s.limited new).shedClaimStays ch then some ((s.limited new).shedClaim ch) else none := by
  rw [claimOf_eq]
  unfold Part.queued
  rw [h.claims, shedsInto_own _ nodup mem]
  split <;> rfl

theorem Shed.claimOf_some (h : Shed vs (s.limited new) t) (nodup : vs.Nodup) (mem : ch ∈ vs) {c : Claim}
    (found : t.claimOf ch = some c) :
    (s.limited new).shedClaimStays ch = true ∧ c = (s.limited new).shedClaim ch := by
  rw [h.claimOf nodup mem] at found
  split at found
  · rename_i stays
    exact ⟨stays, (Option.some.inj found).symm⟩
  · cases found

theorem Shed.shedClaim_eq (h : Shed vs (s.limited new) t) (ch : Fin 25) : (s.limited new).shedClaim ch =
    { chan := ch, amount := if ch = fanChan then t.firstClaim s.fan.target else s.nominal ch, cls := s.classOf ch
      shed := true } := by
  have amount : (s.limited new).shedAmount ch =
      if ch = fanChan then (s.limited new).firstClaim s.fan.target else s.nominal ch := by
    unfold Part.shedAmount
    by_cases fan : ch = fanChan
    · rw [fan]
      rfl
    · have kind : kindOf ch ≠ .fan := by
        intro e
        unfold kindOf at e
        split at e
        · cases e
        · split at e
          · exact fan (Fin.ext (by assumption))
          · split at e <;> cases e
      rw [if_neg fan]
      split
      · rename_i e
        exact absurd e kind
      all_goals rfl
  unfold Part.shedClaim
  rw [amount, firstClaim_congr h.tables h.limit]
  rfl

/-- The claims of channels with an unchanged grant keep their order. -/
theorem Shed.others_sublist (h : Shed vs (s.limited new) t) (front : vs <+: s.shedOrder)
    (holders : ∀ ch ∈ s.arbiter.order, 0 < s.grant ch) :
    (s.arbiter.claims.filter fun c => t.grant c.chan == s.grant c.chan).Sublist t.arbiter.claims := by
  rw [h.claims]
  refine shedsInto_sublist _ List.filter_sublist fun c hc => ?_
  exact (h.kept_iff front holders).1 (beq_iff_eq.1 (List.mem_filter.1 hc).2)

theorem Shed.behind (h : Shed vs (s.limited new) t) (nodup : vs.Nodup) (claims : s.claimsOk) (mem : ch ∈ vs)
    {a b : Claim} (found : t.claimOf ch = some b) (waits : a ∈ s.arbiter.claims) (kept : a.chan ∉ vs)
    (le : a.key ≤ b.key) : [a, b].Sublist t.arbiter.claims := by
  obtain ⟨stays, rfl⟩ := h.claimOf_some nodup mem found
  obtain ⟨xs, ys, rfl⟩ := List.append_of_mem mem
  rw [List.mem_append, List.mem_cons, not_or, not_or] at kept
  obtain ⟨early, other, late⟩ := kept
  obtain ⟨-, tail, -⟩ := List.nodup_append'.1 nodup
  have still : a ∈ xs.foldl (s.limited new).shedInto s.arbiter.claims :=
    List.singleton_sublist.1 (shedsInto_sublist _ (List.singleton_sublist.2 waits)
      fun c hc => by rw [List.mem_singleton.1 hc]; exact early)
  rw [h.claims]
  exact shedsInto_behind _ claims still other late (List.nodup_cons.1 tail).1 stays le

/-- Of two victims of a class the one shed first waits before the other. -/
theorem Shed.victims_in_turn (h : Shed vs (s.limited new) t) (nodup : vs.Nodup) (claims : s.claimsOk)
    (turn : [k, ch].Sublist vs) (same : s.classOf k = s.classOf ch) {a b : Claim} (first : t.claimOf k = some a)
    (second : t.claimOf ch = some b) : [a, b].Sublist t.arbiter.claims := by
  obtain ⟨x, y, z, rfl⟩ := pair_sublist_split turn
  obtain ⟨front, tail, apart⟩ := List.nodup_append'.1 nodup
  obtain ⟨staysK, rfl⟩ := h.claimOf_some nodup (turn.subset (by simp)) first
  obtain ⟨staysCh, rfl⟩ := h.claimOf_some nodup (turn.subset (by simp)) second
  have waits : (s.limited new).shedClaim k ∈ (x ++ k :: y).foldl (s.limited new).shedInto s.arbiter.claims := by
    have own := shedsInto_own (s.limited new) front (ch := k) (by simp) s.arbiter.claims
    rw [if_pos staysK] at own
    exact List.mem_of_mem_filter (own ▸ List.mem_singleton_self _ : _ ∈ List.filter _ _)
  have out : k ∉ ch :: z := fun mem => apart (by simp) mem
  rw [List.mem_cons, not_or] at out
  have key : ((s.limited new).shedClaim k).key = ((s.limited new).shedClaim ch).key := by
    show 2 * Class.rank (s.classOf k) + _ = 2 * Class.rank (s.classOf ch) + _
    rw [same]
    rfl
  rw [h.claims]
  exact shedsInto_behind _ claims waits out.1 out.2 (List.nodup_cons.1 tail).1 staysCh (Nat.le_of_eq key)

end

end Sys2Proof.Machine
end

section
/-! Claims that arrive, grants of a rise of the limit, and the limit's statement as a whole (05: R85, R86, R88, R89). -/

namespace Sys2Proof.Machine

/-! ### A claim arrives -/

theorem giveGrant_arbiter (ch : Fin 25) (amount : Nat) (s : Part) :
    (giveGrant ch amount s).arbiter = s.arbiter.give ch amount := handGrant_arbiter ..

theorem give_grants (a : Arbiter) (ch c : Fin 25) (amount : Nat) : (a.give ch amount).grants.get c =
    if ch = c then a.grants.get ch + amount else a.grants.get c := put_get ..

/-- A claim that fits is granted at once where none waits (R85). -/
theorem makeClaim_fits {s : Part} {ch : Fin 25} {amount : Nat} (empty : s.arbiter.claims = [])
    (fits : s.committed + amount ≤ s.arbiter.limit) : makeClaim ch amount s = giveGrant ch amount s := by
  have none : s.queued ch = [] := by unfold Part.queued; rw [empty]; rfl
  unfold makeClaim
  rw [waits_eq_false none, if_neg Bool.false_ne_true]
  exact if_pos ⟨by rw [empty]; rfl, decide_eq_true fits⟩

theorem insertClaim_between {c : Claim} {pre post : List Claim} (front : ∀ x ∈ pre, x.key ≤ c.key)
    (back : ∀ x ∈ post, c.key < x.key) : insertClaim c (pre ++ post) = pre ++ c :: post := by
  induction pre with
  | nil =>
    cases post with
    | nil => rfl
    | cons x xs => exact if_pos (back x List.mem_cons_self)
  | cons x xs ih =>
    have behind : ¬ c.key < x.key := Nat.not_lt.2 (front x List.mem_cons_self)
    refine (if_neg behind).trans (congrArg (List.cons x) (ih fun y hy => front y (List.mem_cons_of_mem x hy)))

/-- No claim is granted past a head that does not fit (R88). -/
theorem grantPass_blocked {s : Part}
    (tooBig : ∀ c cs, s.arbiter.claims = c :: cs → s.arbiter.limit < s.committed + c.amount) : grantPass s = s := by
  have stuck : ∀ n, grantHeads n s = s := by
    intro n
    cases n with
    | zero => rfl
    | succ n =>
      unfold grantHeads
      split
      · rfl
      · rename_i c cs queue
        split
        · rename_i fits
          exact absurd (of_decide_eq_true fits) (Nat.not_le.2 (tooBig c cs queue))
        · rfl
  exact stuck _

/-- A claim that is not granted at once joins the queue by its class and standing (R85, R86). -/
theorem makeClaim_joins {s : Part} {ch : Fin 25} {amount : Nat} {c : Claim} {pre post : List Claim}
    (arriving : c = { chan := ch, amount := amount, cls := s.classOf ch, shed := false }) (none : s.claimOf ch = none)
    (queue : s.arbiter.claims = pre ++ post) (ahead : ∀ x ∈ pre, x.key ≤ c.key) (back : ∀ x ∈ post, c.key < x.key)
    (tooBig : ∀ x xs, pre ++ c :: post = x :: xs → s.arbiter.limit < s.committed + x.amount) :
    makeClaim ch amount s = s.setArbiter { s.arbiter with claims := pre ++ c :: post } := by
  subst arriving
  have late : ¬ (s.arbiter.claims.isEmpty ∧ s.arbiter.fits amount) := by
    rintro ⟨empty, fits⟩
    rw [queue, List.isEmpty_iff, List.append_eq_nil_iff] at empty
    obtain ⟨rfl, rfl⟩ := empty
    exact absurd (of_decide_eq_true fits) (Nat.not_le.2 (tooBig _ _ rfl))
  unfold makeClaim
  rw [waits_eq_false ((claimOf_none_iff s ch).1 none), if_neg Bool.false_ne_true, if_neg late]
  show grantPass (s.setArbiter { s.arbiter with claims := insertClaim _ s.arbiter.claims }) = _
  rw [queue, insertClaim_between ahead back]
  exact grantPass_blocked tooBig

/-! ### A rise of the limit -/

/-- The first `k` claims of the queue granted, and the next does not fit (R88). -/
structure GrantsHeads (k : Nat) (s t : Part) : Prop where
  claims : t.arbiter.claims = s.arbiter.claims.drop k
  given : ∀ c ∈ s.arbiter.claims.take k, t.grant c.chan = s.grant c.chan + c.amount
  others : ∀ ch, (∀ c ∈ s.arbiter.claims.take k, c.chan ≠ ch) → t.grant ch = s.grant ch
  blocked : ∀ c cs, t.arbiter.claims = c :: cs → s.arbiter.limit < t.committed + c.amount

/-- A head that fits is granted, and the pass goes on behind it. -/
theorem GrantsHeads.cons {k : Nat} {s t : Part} {c : Claim} {cs : List Claim} (queue : s.arbiter.claims = c :: cs)
    (apart : ∀ d ∈ cs, d.chan ≠ c.chan) (h : GrantsHeads k (grantHead c cs s) t) : GrantsHeads (k + 1) s t := by
  have left : (grantHead c cs s).arbiter.claims = cs := by rw [grantHead_arbiter]; rfl
  have grants : ∀ ch, (grantHead c cs s).grant ch = if c.chan = ch then s.grant c.chan + c.amount else s.grant ch := by
    intro ch
    unfold Part.grant
    rw [grantHead_arbiter]
    exact give_grants ..
  obtain ⟨claims, given, others, blocked⟩ := h
  rw [left] at claims given others
  refine ⟨by rw [queue]; exact claims, fun d hd => ?_, fun ch away => ?_, ?_⟩
  · rw [queue, List.take_succ_cons, List.mem_cons] at hd
    rcases hd with rfl | later
    · rw [others d.chan fun e he => apart e (List.mem_of_mem_take he), grants, if_pos rfl]
    · rw [given d later, grants, if_neg (apart d (List.mem_of_mem_take later)).symm]
  · rw [queue, List.take_succ_cons, List.forall_mem_cons] at away
    rw [others ch away.2, grants, if_neg away.1]
  · rw [grantHead_arbiter] at blocked
    exact blocked

theorem grantHeads_grants (n : Nat) (s : Part) (nodup : (s.arbiter.claims.map (·.chan)).Nodup)
    (len : s.arbiter.claims.length ≤ n) : ∃ k, GrantsHeads k s (grantHeads n s) := by
  induction n generalizing s with
  | zero =>
    have empty := List.eq_nil_of_length_eq_zero (Nat.le_zero.1 len)
    exact ⟨0, rfl, by simp, fun _ _ => rfl, fun c cs queue => by rw [grantHeads, empty] at queue; cases queue⟩
  | succ n ih =>
    unfold grantHeads
    split
    · rename_i empty
      exact ⟨0, rfl, by simp, fun _ _ => rfl, fun c cs queue => by rw [empty] at queue; cases queue⟩
    · rename_i c cs queue
      rw [queue, List.map_cons, List.nodup_cons] at nodup
      rw [queue, List.length_cons] at len
      have left : (grantHead c cs s).arbiter.claims = cs := by rw [grantHead_arbiter]; rfl
      split
      · obtain ⟨k, grants⟩ := ih (grantHead c cs s) (by rw [left]; exact nodup.2) (by rw [left]; omega)
        exact ⟨k + 1, grants.cons queue fun d hd e => nodup.1 (e ▸ List.mem_map_of_mem hd)⟩
      · rename_i tooBig
        refine ⟨0, rfl, by simp, fun _ _ => rfl, fun d ds same => ?_⟩
        obtain ⟨rfl, -⟩ := List.cons.inj (queue.symm.trans same)
        exact Nat.not_le.1 fun fits => tooBig (decide_eq_true fits)

theorem setLimit_grants {s : Part} {new : Nat} (rise : s.arbiter.limit < new) (claims : s.claimsOk) :
    ∃ k, GrantsHeads k (s.limited new) (setLimit new s) := by
  obtain ⟨k, queue, given, others, blocked⟩ :=
    grantHeads_grants s.arbiter.claims.length (s.limited new) claims.2 (Nat.le_refl _)
  have arbiter : (setLimit new s).arbiter = (grantPass (s.limited new)).arbiter := by
    rw [setLimit_rise rise]
    exact (FlagsOnly.syncConds _).outputs.2.1
  refine ⟨k, ?_⟩
  unfold Part.grant at given others
  unfold Part.committed at blocked
  constructor
  · rw [arbiter]; exact queue
  · unfold Part.grant; rw [arbiter]; exact given
  · unfold Part.grant; rw [arbiter]; exact others
  · unfold Part.committed; rw [arbiter]; exact blocked

theorem setLimit_rise_committed {s : Part} {new : Nat} (rise : s.arbiter.limit < new) (budget : s.budgetOk) :
    (setLimit new s).committed ≤ new := by
  have kept : (setLimit new s).budgetOk := by
    rw [setLimit_rise rise]
    refine ((Reaction.grantPass _).trans (.syncConds _)).budget ⟨?_, budget.2⟩
    exact Nat.le_trans budget.1 (Nat.le_of_lt rise)
  have fits := kept.1
  rwa [setLimit_limit] at fits

/-! ### The statement -/

/-- Settles O49: a fall sheds the front of the shed order, a rise grants the front of the queue, and a claim joins the
queue by its class and standing. -/
theorem shedsComfortThenGaugeThenSafety : Obligations.ShedsComfortThenGaugeThenSafety := by
  unfold Obligations.ShedsComfortThenGaugeThenSafety
  refine ⟨fun s new fall budget order => ?_, fun s ch amount none => ⟨fun empty fits => ?_, ?_⟩,
    fun s new rise budget claims => ?_⟩
  · obtain ⟨vs, front, shed⟩ := setLimit_shed fall order
    have turns := shedOrder_nodup order
    have nodup : vs.Nodup := turns.sublist front.sublist
    refine ⟨setLimit_fall_committed fall budget, shed.grant_or, ?_, ?_, ?_, fun claims holders => ⟨?_, ?_,
      shed.others_sublist front holders, ?_, ?_⟩⟩
    · rintro ch k ⟨held, lost⟩ gauge comfort
      exact shed.grant_before front budget order held lost fun hk hch =>
        shedOrder_class hk hch (by rw [gauge, comfort]; decide)
    · rintro ch k ⟨held, lost⟩ safety other
      exact shed.grant_before front budget order held lost fun hk hch =>
        shedOrder_class hk hch (by rw [safety]; exact rank_pos other)
    · rintro pre mid post ch k split ⟨held, lost⟩ same
      exact shed.grant_before front budget order held lost fun _ _ =>
        shedOrder_latest (split ▸ pair_sublist_of_split pre mid post) same
    · rintro ch ⟨held, lost⟩ used
      have stays : (s.limited new).shedClaimStays ch = true := (shedClaimStays_iff _ ch).2 used
      rw [shed.claimOf nodup (shed.mem_of_lost held lost), if_pos stays, shed.shedClaim_eq]
    · rintro ch ⟨held, lost⟩ idle
      rw [shed.claimOf nodup (shed.mem_of_lost held lost)]
      exact if_neg fun stays => (shedClaimStays_iff _ ch).1 stays idle
    · rintro ch b ⟨held, lost⟩ found a waits same le
      exact pair_sublist_split (shed.behind nodup claims (shed.mem_of_lost held lost) found waits
        ((shed.kept_iff front holders).1 same) le)
    · rintro pre mid post ch k a b split ⟨held, lost⟩ - same first second
      have turn := shedOrder_latest (split ▸ pair_sublist_of_split pre mid post) same
      exact pair_sublist_split (shed.victims_in_turn nodup claims
        (pair_sublist_of_front front turns turn (shed.mem_of_lost held lost)) same first second)
  · have granted : (makeClaim ch amount s).arbiter = s.arbiter.give ch amount := by
      rw [makeClaim_fits empty fits, giveGrant_arbiter]
    refine ⟨?_, (congrArg Arbiter.claims granted).trans empty⟩
    unfold Part.grant
    rw [granted, give_grants, if_pos rfl]
  · intro pre post queue ahead back tooBig
    rw [makeClaim_joins rfl none queue ahead back tooBig]
    exact ⟨rfl, fun _ => rfl⟩
  · obtain ⟨k, queue, given, others, blocked⟩ := setLimit_grants rise claims
    exact ⟨setLimit_rise_committed rise budget, k, queue, given, others, blocked⟩

end Sys2Proof.Machine
end

section
/-! What a settling of the lights leaves and what the lamp-node records come to show (04: R65, R69, R74, R75), and the
edges of the flasher (06: R109, R110; obligation O46). -/

namespace Sys2Proof.Machine

/-! ### Masks -/

/-- A byte marks the outputs that the remote channels of a lamp node with some property are on (04: R74). -/
def Part.marks (s : Part) (n : Nat) (test : Fin 25 → Prop) (b : Byte) : Prop :=
  ∀ k : Fin 8, b.getLsbD k.val = true ↔ ∃ ch : Fin 25, 17 ≤ ch.val ∧ 0 < (s.chanCfg ch).nominal ∧
    (s.chanCfg ch).node = n ∧ (s.chanCfg ch).output = k.val ∧ test ch

theorem getLsbD_output (o : Nat) (k : Fin 8) : (1#8 <<< o).getLsbD k.val = true ↔ o = k.val := by
  rw [BitVec.getLsbD_shiftLeft, BitVec.getLsbD_one]
  simp only [Bool.and_eq_true, decide_eq_true_eq, Bool.not_eq_true', decide_eq_false_iff_not]
  omega

theorem outputMask_bit (s : Part) (chs : List (Fin 25)) (k : Fin 8) :
    (s.outputMask chs).getLsbD k.val = true ↔ ∃ ch ∈ chs, (s.chanCfg ch).output = k.val := by
  have fold : ∀ (cs : List (Fin 25)) (m : Byte),
      (cs.foldl (fun m ch => m ||| (1#8 <<< (s.chanCfg ch).output)) m).getLsbD k.val = true ↔
        m.getLsbD k.val = true ∨ ∃ ch ∈ cs, (s.chanCfg ch).output = k.val := by
    intro cs
    induction cs with
    | nil => simp
    | cons c cs ih =>
      intro m
      rw [List.foldl_cons, ih, BitVec.getLsbD_or, Bool.or_eq_true, getLsbD_output, List.exists_mem_cons_iff, or_assoc]
  have empty : (0 : Byte).getLsbD k.val ≠ true := by simp
  exact (fold chs 0).trans (or_iff_right empty)

theorem outputMask_marks (s : Part) (n : Nat) (test : Fin 25 → Bool) :
    s.marks n (test · = true) (s.outputMask ((s.remotesOf n).filter test)) := by
  intro k
  rw [outputMask_bit]
  refine exists_congr fun ch => ?_
  rw [List.mem_filter, mem_remotesOf]
  tauto

theorem litDim_iff (s : Part) (ch : Fin 25) :
    s.litDim ch = true ↔ s.lit ch = true ∧ ∃ d, (s.chan ch).demand = .dim d := by
  unfold Part.litDim
  rw [Bool.and_eq_true]
  refine and_congr_right fun _ => ?_
  cases (s.chan ch).demand <;> simp [Demand.dimDuty]

/-- Every lamp-node record has its masks as the lit fields stand (04: R74). -/
def Part.masksShown (s : Part) : Prop :=
  ∀ r ∈ s.channels.lampNodes, r.lit = s.litMask r.node ∧ r.dim = s.dimMask r.node

theorem Part.masksShown.marks {s : Part} (h : s.masksShown) {r : LampNode} (mem : r ∈ s.channels.lampNodes) :
    s.marks r.node (fun ch => s.lit ch = true) r.lit ∧
    s.marks r.node (fun ch => s.lit ch = true ∧ ∃ d, (s.chan ch).demand = .dim d) r.dim := by
  obtain ⟨lit, dim⟩ := h r mem
  rw [lit, dim]
  refine ⟨outputMask_marks s _ _, ?_⟩
  simp only [← litDim_iff]
  exact outputMask_marks s _ _

/-! ### Commands to lamp nodes -/

/-- The masks of a lamp-node record, with the node they are for. -/
def LampNode.masks (r : LampNode) : Nat × Byte × Byte := (r.node, r.lit, r.dim)

/-- Commands to lamp nodes have gone out: own transmit queues and refresh timers apart, the outputs stay. -/
structure Commanded (s t : Part) : Prop where
  chans : t.channels.chans = s.channels.chans
  sample : t.channels.flashSample = s.channels.flashSample
  masks : t.channels.lampNodes.map LampNode.masks = s.channels.lampNodes.map LampNode.masks
  arbiter : t.arbiter = s.arbiter
  lamps : t.lamps = s.lamps
  fan : t.fan = s.fan
  gauges : t.gauges = s.gauges
  tables : t.tables = s.tables

theorem Commanded.refl (s : Part) : Commanded s s := ⟨rfl, rfl, rfl, rfl, rfl, rfl, rfl, rfl⟩

theorem Commanded.trans {s t u : Part} (h : Commanded s t) (k : Commanded t u) : Commanded s u where
  chans := k.chans.trans h.chans
  sample := k.sample.trans h.sample
  masks := k.masks.trans h.masks
  arbiter := k.arbiter.trans h.arbiter
  lamps := k.lamps.trans h.lamps
  fan := k.fan.trans h.fan
  gauges := k.gauges.trans h.gauges
  tables := k.tables.trans h.tables

theorem Commanded.of_outputs {s t : Part} (h : SameOutputs s t) (tables : t.tables = s.tables) : Commanded s t := by
  obtain ⟨channels, arbiter, lamps, fan, gauges⟩ := h
  exact ⟨by rw [channels], by rw [channels], by rw [channels], arbiter, lamps, fan, gauges, tables⟩

theorem Commanded.onLampNode (s : Part) (n : Nat) (f : LampNode → LampNode) (h : ∀ r, (f r).masks = r.masks) :
    Commanded s (s.onLampNode n f) := by
  refine ⟨rfl, rfl, ?_, rfl, rfl, rfl, rfl, rfl⟩
  show (s.channels.lampNodes.map _).map LampNode.masks = _
  rw [List.map_map]
  refine List.map_congr_left fun r _ => ?_
  show (if r.node = n then f r else r).masks = r.masks
  split
  · exact h r
  · rfl

theorem Commanded.commandNode (s : Part) (n : Nat) : Commanded s (commandNode s n) := by
  unfold Machine.commandNode
  split
  · exact .refl s
  · have sent := fun b =>
      Commanded.of_outputs (FlagsOnly.originate n b s).outputs (Reaction.originate n b s).still.tables
    split
    · exact .refl s
    · exact (sent _).trans (.onLampNode _ _ _ fun _ => rfl)

theorem Commanded.commandNodes (ns : List Nat) (s : Part) : Commanded s (ns.foldl Machine.commandNode s) := by
  induction ns generalizing s with
  | nil => exact .refl s
  | cons n ns ih => exact (Commanded.commandNode s n).trans (ih _)

section
variable {s t : Part} (h : Commanded s t)
include h

theorem Commanded.chan (ch : Fin 25) : t.chan ch = s.chan ch := by
  unfold Part.chan
  rw [h.chans]

theorem Commanded.lit : t.lit = s.lit := by
  funext ch
  unfold Part.lit Part.gauge
  rw [h.chan, h.lamps, h.fan, h.gauges]

theorem Commanded.masksShown (shown : s.masksShown) : t.masksShown := by
  have cfg : t.chanCfg = s.chanCfg := by
    funext ch
    unfold Part.chanCfg
    rw [h.tables]
  have dim : t.litDim = s.litDim := by
    funext ch
    unfold Part.litDim
    rw [h.lit, h.chan]
  intro r mem
  obtain ⟨r', mem', same⟩ := List.mem_map.1 (h.masks ▸ List.mem_map_of_mem (f := LampNode.masks) mem)
  obtain ⟨node, lit, dim'⟩ : r'.node = r.node ∧ r'.lit = r.lit ∧ r'.dim = r.dim := by
    simpa [LampNode.masks] using same
  unfold Part.litMask Part.dimMask Part.outputMask Part.remotesOf
  rw [cfg, dim, h.lit, ← node, ← lit, ← dim']
  exact shown r' mem'

end

/-! ### The lights settled -/

/-- The lights have settled in a phase of the flasher: overload timers of outputs that are not lit are reset, and the
records show the lit fields; nothing else of the outputs changes. -/
structure Settled (s t : Part) : Prop where
  chan : ∀ ch, t.chan ch = if s.lit ch then s.chan ch else { s.chan ch with overload := none }
  sample : t.channels.flashSample = s.channels.flashSample
  shown : t.masksShown
  arbiter : t.arbiter = s.arbiter
  lamps : t.lamps = s.lamps
  fan : t.fan = s.fan
  gauges : t.gauges = s.gauges

theorem Settled.commanded {s t u : Part} (h : Settled s t) (k : Commanded t u) : Settled s u where
  chan ch := (k.chan ch).trans (h.chan ch)
  sample := k.sample.trans h.sample
  shown := k.masksShown h.shown
  arbiter := k.arbiter.trans h.arbiter
  lamps := k.lamps.trans h.lamps
  fan := k.fan.trans h.fan
  gauges := k.gauges.trans h.gauges

theorem showMasks_shown (s : Part) : (s.setLampNodes (s.channels.lampNodes.map (·.shown s))).masksShown := by
  intro r mem
  obtain ⟨r', -, rfl⟩ := List.mem_map.1 mem
  exact ⟨rfl, rfl⟩

theorem settleLights_settled {s : Part} (runs : s.lamps.flasher.state ≠ .idle) : Settled s (settleLights s) := by
  have started : flashStart s = s := if_neg fun idle => runs idle.1
  have dropped : Settled s
      ((dropTimers s).setLampNodes ((dropTimers s).channels.lampNodes.map (·.shown (dropTimers s)))) :=
    ⟨dropTimers_chan s, rfl, showMasks_shown _, rfl, rfl, rfl, rfl⟩
  unfold settleLights
  rw [started]
  exact dropped.commanded (.commandNodes _ _)

/-- While the flasher runs no DORMANT entry ends the event (09: R158). -/
theorem Settled.finish {s t : Part} (h : Settled s t) (runs : s.lamps.flasher.state ≠ .idle) :
    Settled s (finish t) := by
  have awake : t.staysAwake := .inr (.inr (.inl (by rw [h.lamps]; exact runs)))
  exact h.commanded (.of_outputs (finish_outputs t awake).1 (finish_still t).tables)

section
variable {s t : Part} (h : Settled s t)
include h

theorem Settled.untimed (ch : Fin 25) : (t.chan ch).untimed = (s.chan ch).untimed := by
  rw [h.chan]
  split <;> rfl

theorem Settled.lit {ch : Fin 25} (lamp : lampType ch = true) : t.lit ch = s.lit ch := by
  rw [lit_lampType lamp, lit_lampType lamp, untimed_state (h.untimed ch), untimed_demand (h.untimed ch), h.lamps]

end

/-! ### The edges -/

/-- The flasher at an edge, with what is due of the sample of the phase. -/
def Part.atEdge (s : Part) (f : Flasher) (sample : Option Nat) : Part :=
  { s with
    lamps := { s.lamps with flasher := f }
    channels := { s.channels with flashSample := sample } }

/-- An edge of the flasher and the end of its event. -/
def edge (f : Flasher) (sample : Option Nat) (s : Part) : Part := finish (settleLights (s.atEdge f sample))

/-- The flasher at the start of a phase, its timer at the length the rate gives. -/
def Flasher.began (phase : FlasherState) (rate : FlashRate) (seen : Bool) : Flasher :=
  { state := phase, rate := rate, timer := some (phaseMs rate), faultSeen := seen }

theorem exec_onPhaseEdge {s : State} (on : s.part.on = true) (runs : s.part.lamps.flasher.timer ≠ none)
    (phase : s.part.lamps.flasher.state = .offPhase) : exec .onPhaseEdge s = s.nextPart (edge (.began .onPhase
      (if s.part.lamps.flasher.faultSeen then .fast else .normal) s.part.flashFault) (some 100) s.part) := by
  refine congrArg s.nextPart (eventIf_eq onPhaseEdge on ?_)
  rw [phase]
  exact Option.isSome_iff_ne_none.2 runs

theorem exec_offPhaseEdge {s : State} (on : s.part.on = true) (runs : s.part.lamps.flasher.timer ≠ none)
    (phase : s.part.lamps.flasher.state = .onPhase) : exec .offPhaseEdge s = s.nextPart (edge (.began .offPhase
      s.part.lamps.flasher.rate s.part.lamps.flasher.faultSeen) s.part.channels.flashSample s.part) := by
  refine congrArg s.nextPart (eventIf_eq offPhaseEdge on ?_)
  rw [phase]
  exact Option.isSome_iff_ne_none.2 runs

theorem flashFault_iff (s : Part) : s.flashFault = true ↔ ∃ ch, lampType ch = true ∧ (s.chan ch).demand = .flash ∧
    ((s.chan ch).bulbOut = true ∨ (s.chan ch).state = .unreachable) := by
  unfold Part.flashFault lampChans
  rw [List.any_eq_true]
  simp [mem_allChans]

section
variable {f : Flasher} (runs : f.state ≠ .idle) (sample : Option Nat) (s : Part)
include runs

theorem edge_settled : Settled (s.atEdge f sample) (edge f sample s) := (settleLights_settled runs).finish runs

/-- A flashing channel that is ON is lit in the ON phase alone (04: Table 5). -/
theorem edge_flashing {ch : Fin 25} (lamp : lampType ch = true) (flashing : (s.chan ch).demand.flashing = true) :
    (edge f sample s).lit ch = ((s.chan ch).state == .on && f.state == .onPhase) := by
  rw [(edge_settled runs sample s).lit lamp, lit_lampType lamp]
  show litBy (s.chan ch).demand (s.chan ch).state f.state = _
  cases demand : (s.chan ch).demand with
  | flash | telltale => rfl
  | none | steady | dim d => rw [demand] at flashing; cases flashing

/-- The end of the lit state resets an overload timer (04: R69). -/
theorem edge_unlit {ch : Fin 25} (lamp : lampType ch = true) (unlit : (edge f sample s).lit ch = false) :
    ((edge f sample s).chan ch).overload = none := by
  have settled := edge_settled runs sample s
  rw [settled.lit lamp] at unlit
  rw [settled.chan, unlit]
  rfl

/-- A lit lamp whose demand does not flash stays as it is. -/
theorem edge_lit {ch : Fin 25} (lamp : lampType ch = true) (steady : (s.chan ch).demand.flashing = false)
    (lit : s.lit ch = true) : (edge f sample s).chan ch = s.chan ch := by
  have stays : (s.atEdge f sample).lit ch = true := by
    rw [lit_lampType lamp] at lit ⊢
    show litBy (s.chan ch).demand (s.chan ch).state f.state = true
    cases demand : (s.chan ch).demand with
    | none | steady | dim d => rw [demand] at lit; exact lit
    | flash | telltale => rw [demand] at steady; cases steady
  rw [(edge_settled runs sample s).chan, stays]
  rfl

end

/-- What follows an edge: the lit fields of the flashing channels and the masks of the lamp nodes; budget, fan, gauges,
states and demands stay. -/
structure FollowsEdge (s t : Part) (on : Bool) : Prop where
  flashing : ∀ ch, lampType ch = true → (s.chan ch).state = .on →
    (s.chan ch).demand = .flash ∨ (s.chan ch).demand = .telltale → t.lit ch = on
  masks : ∀ r ∈ t.channels.lampNodes, t.marks r.node (fun ch => t.lit ch = true) r.lit ∧
    t.marks r.node (fun ch => t.lit ch = true ∧ ∃ d, (t.chan ch).demand = .dim d) r.dim
  arbiter : t.arbiter = s.arbiter
  fan : t.fan = s.fan
  gauges : t.gauges = s.gauges
  chans : ∀ ch, (t.chan ch).state = (s.chan ch).state ∧ (t.chan ch).demand = (s.chan ch).demand

theorem edge_follows {f : Flasher} (runs : f.state ≠ .idle) (sample : Option Nat) (s : Part) :
    FollowsEdge s (edge f sample s) (f.state == .onPhase) := by
  have settled := edge_settled runs sample s
  refine ⟨fun ch lamp on flashing => ?_, fun r mem => settled.shown.marks mem, settled.arbiter, settled.fan,
    settled.gauges, fun ch => ⟨untimed_state (settled.untimed ch), untimed_demand (settled.untimed ch)⟩⟩
  rw [edge_flashing runs sample s lamp ((flashing_iff _).2 flashing), on]
  rfl

/-- Settles O46, by the lights as they settle at an edge. -/
theorem flasherEdges : Obligations.FlasherEdges := by
  intro s on runs u f phase mask follow
  have ms : ∀ r, phase r = phaseMs r := fun r => by cases r <;> rfl
  have followed : ∀ t b, FollowsEdge u t b → follow t b := fun t b h =>
    ⟨h.flashing, h.masks, h.arbiter, h.fan, h.gauges, h.chans⟩
  refine ⟨fun off => ?_, fun lit => ?_⟩
  · let next : Flasher := .began .onPhase (if f.faultSeen then .fast else .normal) u.flashFault
    have runs' : next.state ≠ .idle := FlasherState.noConfusion
    have settled := edge_settled runs' (some 100) u
    have flasher : (edge next (some 100) u).lamps.flasher = next := congrArg Lamps.flasher settled.lamps
    refine ⟨_, exec_onPhaseEdge on runs off, ?_⟩
    show (edge next (some 100) u).lamps.flasher.state = _ ∧ _
    rw [flasher]
    exact ⟨rfl, rfl, congrArg some (ms _).symm, settled.sample, flashFault_iff u,
      followed _ _ (edge_follows runs' (some 100) u)⟩
  · let next : Flasher := .began .offPhase f.rate f.faultSeen
    have runs' : next.state ≠ .idle := FlasherState.noConfusion
    have settled := edge_settled runs' u.channels.flashSample u
    have follows := edge_follows runs' u.channels.flashSample u
    refine ⟨_, exec_offPhaseEdge on runs lit, ?_, followed _ _ follows, fun l => ⟨fun flashing => ?_,
      fun flash telltale steady => ?_⟩⟩
    · rw [ms]
      exact congrArg Lamps.flasher settled.lamps
    · have lamp := lampType_lampChan l
      refine edge_unlit runs' _ u lamp ?_
      rw [edge_flashing runs' _ u lamp ((flashing_iff _).2 flashing)]
      exact Bool.and_false _
    · have still : (u.chan (lampChan l)).demand.flashing = false :=
        Bool.eq_false_of_not_eq_true fun flashing => ((flashing_iff _).1 flashing).elim flash telltale
      exact congrArg Chan.overload (edge_lit runs' _ u (lampType_lampChan l) still steady)

end Sys2Proof.Machine
end


section
/-! What the blocks leave of the demands of the channels and of the results of the rules (04: R63; 06: R104, R105). -/

namespace Sys2Proof.Machine

/-! ### The relation -/

/-- The demands of the channels and the results of the rules stay. -/
structure SameDemands (s t : Part) : Prop where
  demand : ∀ ch, (t.chan ch).demand = (s.chan ch).demand
  results : t.lamps.results = s.lamps.results

theorem SameDemands.refl (s : Part) : SameDemands s s := ⟨fun _ => rfl, rfl⟩

theorem SameDemands.trans {s t u : Part} (h : SameDemands s t) (k : SameDemands t u) : SameDemands s u :=
  ⟨fun ch => (k.demand ch).trans (h.demand ch), k.results.trans h.results⟩

theorem SameDemands.foldl {α : Type} {f : Part → α → Part} (hf : ∀ s x, SameDemands s (f s x)) (xs : List α)
    (s : Part) : SameDemands s (xs.foldl f s) := by
  induction xs generalizing s with
  | nil => exact .refl s
  | cons x xs ih => exact (hf s x).trans (ih _)

theorem SameDemands.ite {s a b : Part} {c : Prop} [Decidable c] (ha : SameDemands s a) (hb : SameDemands s b) :
    SameDemands s (if c then a else b) := by
  split
  · exact ha
  · exact hb

/-! ### Single updates -/

/-- An update apart from the live fields and the results. -/
theorem SameDemands.of_eq {s t : Part} (chans : t.channels.chans = s.channels.chans)
    (results : t.lamps.results = s.lamps.results) : SameDemands s t :=
  ⟨fun ch => by unfold Part.chan; rw [chans], results⟩

theorem SameDemands.setChan (s : Part) (ch : Fin 25) (c : Chan) (h : c.demand = (s.chan ch).demand) :
    SameDemands s (s.setChan ch c) := by
  refine ⟨fun k => ?_, rfl⟩
  by_cases own : ch = k
  · rw [← own, setChan_chan, h]
  · rw [setChan_ne s c own]

theorem SameDemands.setArbiter (s : Part) (a : Arbiter) : SameDemands s (s.setArbiter a) := .of_eq rfl rfl

theorem SameDemands.setFan (s : Part) (f : Fan) : SameDemands s (s.setFan f) := .of_eq rfl rfl

theorem SameDemands.setFlasher (s : Part) (f : Flasher) : SameDemands s (s.setFlasher f) := .of_eq rfl rfl

theorem SameDemands.of_outputs {s t : Part} (h : SameOutputs s t) : SameDemands s t :=
  .of_eq (congrArg Channels.chans h.1) (congrArg Lamps.results h.2.2.1)

theorem SameDemands.syncConds (s : Part) : SameDemands s (syncConds s) := .of_outputs (FlagsOnly.syncConds s).outputs

/-! ### Lights, grants and sheds -/

theorem flashStart_results (s : Part) : (flashStart s).lamps.results = s.lamps.results := by
  unfold flashStart
  split <;> rfl

theorem SameDemands.settleLights (s : Part) : SameDemands s (settleLights s) := by
  refine ⟨fun ch => untimed_demand (Leaves.settleLights (ch := ch) s).chan, ?_⟩
  exact (congrArg Lamps.results (Commanded.commandNodes _ _).lamps).trans (flashStart_results s)

/-- Live fields written with the demand kept, and the lights settled. -/
theorem SameDemands.relight (s : Part) (ch : Fin 25) (c : Chan) (h : c.demand = (s.chan ch).demand) :
    SameDemands s (Machine.settleLights (s.setChan ch c)) := (SameDemands.setChan s ch c h).trans (.settleLights _)

theorem SameDemands.noteFault (ch : Fin 25) (s : Part) : SameDemands s (noteFault ch s) :=
  .ite (.setFlasher ..) (.refl s)

theorem SameDemands.leaveSettling (g : Fin 4) (s : Part) : SameDemands s (leaveSettling g s) :=
  .ite (.of_eq rfl rfl) (.refl s)

theorem SameDemands.handGrant (ch : Fin 25) (s : Part) : SameDemands s (handGrant ch s) := by
  have lamp := SameDemands.relight s ch { s.chan ch with state := .on } rfl
  unfold Machine.handGrant
  split
  · exact lamp
  · exact lamp
  · exact .setFan ..
  · exact .leaveSettling ..

theorem SameDemands.giveGrant (ch : Fin 25) (amount : Nat) (s : Part) : SameDemands s (giveGrant ch amount s) :=
  (SameDemands.setArbiter ..).trans (.handGrant ch _)

theorem SameDemands.grantPass (s : Part) : SameDemands s (grantPass s) := by
  have heads : ∀ n t, SameDemands t (grantHeads n t) := by
    intro n
    induction n with
    | zero => exact .refl
    | succ n ih =>
      intro t
      unfold grantHeads
      split
      · exact .refl t
      · exact .ite (((SameDemands.setArbiter ..).trans (.giveGrant ..)).trans (ih _)) (.refl t)
  exact heads ..

theorem SameDemands.passAfter {s t : Part} (old : Part) (h : SameDemands s t) : SameDemands s (passAfter old t) :=
  .ite h (h.trans (.grantPass t))

theorem SameDemands.makeClaim (ch : Fin 25) (amount : Nat) (s : Part) : SameDemands s (makeClaim ch amount s) :=
  .ite ((SameDemands.setArbiter ..).trans (.grantPass _))
    (.ite (.giveGrant ..) ((SameDemands.setArbiter ..).trans (.grantPass _)))

theorem SameDemands.gaugeShed (g : Fin 4) (s : Part) : SameDemands s (gaugeShed g s) := by
  have undriven : ∀ st, SameDemands s (undrive g st s) := fun _ => .of_eq rfl rfl
  unfold Machine.gaugeShed
  split
  · exact undriven _
  · exact undriven _
  · exact undriven _
  · exact undriven _
  · exact .refl s
  · exact .refl s

theorem SameDemands.shedOne (ch : Fin 25) (s : Part) : SameDemands s (shedOne ch s) := by
  have shed : ∀ t, SameDemands t (handShed ch t) := by
    intro t
    have lamp := SameDemands.relight t ch { t.chan ch with state := .shed, bulbOut := false, measured := 0 } rfl
    unfold handShed
    split
    · exact lamp
    · exact lamp
    · exact .setFan ..
    · exact .gaugeShed ..
  exact (SameDemands.setArbiter ..).trans (shed _)

theorem SameDemands.shedSome (n : Nat) (s : Part) : SameDemands s (shedSome n s) := by
  induction n generalizing s with
  | zero => exact .refl s
  | succ n ih =>
    unfold Machine.shedSome
    refine .ite (.refl s) ?_
    split
    · exact .refl s
    · exact (SameDemands.shedOne _ s).trans (ih _)

theorem SameDemands.selectLimit (s : Part) : SameDemands s (selectLimit s) := by
  have limited : ∀ new, SameDemands s (s.setArbiter { s.arbiter with limit := new }) := fun _ => .setArbiter ..
  exact .ite (.refl s)
    (SameDemands.trans (.ite ((limited _).trans (.grantPass _)) ((limited _).trans (.shedSome _ _))) (.syncConds _))

/-! ### Fan and gauges -/

theorem SameDemands.fanStep (s : Part) : SameDemands s (fanStep s) := by
  unfold Machine.fanStep
  split
  · exact .setFan ..
  · exact (SameDemands.setFan ..).trans (.makeClaim ..)

theorem SameDemands.stopFan (s : Part) : SameDemands s (stopFan s) :=
  .passAfter s ((SameDemands.setArbiter ..).trans (.setFan ..))

theorem SameDemands.cutFan (target : Nat) (s : Part) : SameDemands s (cutFan target s) :=
  .passAfter s ((SameDemands.setArbiter ..).trans (.setFan ..))

theorem SameDemands.raiseFan (target : Nat) (s : Part) : SameDemands s (raiseFan target s) := by
  have written : ∀ a f, SameDemands s ((s.setArbiter a).setFan f) := fun _ _ => .of_eq rfl rfl
  unfold Machine.raiseFan
  refine .ite ?_ (.passAfter s (written _ _))
  split
  · exact ((written _ _).trans (.of_eq rfl rfl)).trans (.grantPass _)
  · exact .passAfter s ((written _ _).trans (.of_eq rfl rfl))

theorem SameDemands.setTarget (target : Nat) (s : Part) : SameDemands s (setTarget target s) := by
  have stepped : ∀ f, SameDemands s (Machine.fanStep (s.setFan f)) := fun _ =>
    (SameDemands.setFan ..).trans (.fanStep _)
  unfold Machine.setTarget
  refine .ite (.refl s) ?_
  split
  · exact stepped _
  · exact .ite (.stopFan s) ((SameDemands.setFan ..).trans (.makeClaim ..))
  · exact .ite (.stopFan s) (.ite (.cutFan _ s) (.raiseFan _ s))
  · exact .ite (.stopFan s) (.ite (.cutFan _ s) (stepped _))
  · exact .ite (.stopFan s) (.setFan ..)
  · exact .setFan ..

theorem SameDemands.selectFan (s : Part) : SameDemands s (selectFan s) :=
  .ite (.refl s) (.ite (.setFan ..) (.setTarget _ s))

theorem SameDemands.startTests (s : Part) : SameDemands s (startTests s) := by
  have settling : ∀ t g r, SameDemands t (t.setGauge g r) := fun _ _ _ => .of_eq rfl rfl
  exact .foldl (fun t g => .ite ((settling t g _).trans (.makeClaim ..)) (.refl t)) _ s

/-! ### A demand handed -/

theorem SameDemands.claimChan (ch : Fin 25) (s : Part) : SameDemands s (claimChan ch s) := by
  have refresh : ∀ t, SameDemands t (startRefresh ch t) := fun t => .ite (.of_eq rfl rfl) (.refl t)
  have started := fun st => (SameDemands.setChan s ch { s.chan ch with state := st } rfl).trans (refresh _)
  exact .ite (((started _).trans (.noteFault ch _)).trans (.settleLights _)) ((started _).trans (.makeClaim ..))

/-- A demand handed is taken; the other demands and the results stay (04: R63). -/
theorem setDemand_takes (ch : Fin 25) (d : Demand) (s : Part) :
    ∃ c, c.demand = d ∧ SameDemands (s.setChan ch c) (setDemand ch d s) := by
  let taken := s.setChan ch { s.chan ch with demand := d }
  have lights := SameDemands.settleLights taken
  unfold setDemand
  split
  · rename_i same
    refine ⟨s.chan ch, same, fun k => ?_, rfl⟩
    by_cases own : ch = k
    · rw [← own, setChan_chan]
    · rw [setChan_ne _ _ own]
  · split
    · rename_i none
      exact ⟨Chan.off, none.symm, .passAfter s ((SameDemands.setArbiter ..).trans (.settleLights _))⟩
    · exact ⟨{ s.chan ch with demand := d }, rfl,
        .ite (.ite (.refl _) (.claimChan ch _)) (.ite (lights.trans (.noteFault ch _)) lights)⟩

theorem setDemand_demand (ch k : Fin 25) (d : Demand) (s : Part) :
    ((setDemand ch d s).chan k).demand = if ch = k then d else (s.chan k).demand := by
  obtain ⟨c, demand, same⟩ := setDemand_takes ch d s
  rw [same.demand]
  split
  · rename_i own
    rw [← own, setChan_chan, demand]
  · rename_i other
    rw [setChan_ne s c other]

theorem setDemand_results (ch : Fin 25) (d : Demand) (s : Part) :
    (setDemand ch d s).lamps.results = s.lamps.results := by
  obtain ⟨c, -, same⟩ := setDemand_takes ch d s
  exact same.results

end Sys2Proof.Machine
end

section
/-! The rules of lamp logic (06: R99 to R104): the rule that decides, and the demands that follow a change of the
ignition state in RUNNING (obligation O47). -/

namespace Sys2Proof.Machine

/-! ### The handing of the results -/

theorem mem_lampChans {ch : Fin 25} : ch ∈ lampChans ↔ lampType ch = true := by
  unfold lampChans
  rw [List.mem_filter]
  exact and_iff_right (mem_allChans ch)

theorem mem_changedChans {s : Part} {ch : Fin 25} :
    ch ∈ s.changedChans ↔ lampType ch = true ∧ s.resultDemand ch ≠ (s.chan ch).demand := by
  unfold Part.changedChans
  simp only [List.mem_append, List.mem_filter, mem_lampChans, bne_iff_ne, beq_iff_eq]
  tauto

/-- Each channel handed a change ends with its result as demand; the others keep theirs (R104). -/
theorem handDemands_demand (chs : List (Fin 25)) (s : Part) (ch : Fin 25) :
    ((chs.foldl handDemand s).chan ch).demand = if ch ∈ chs then s.resultDemand ch else (s.chan ch).demand := by
  induction chs generalizing s with
  | nil => rfl
  | cons k chs ih =>
    have results : (handDemand s k).resultDemand ch = s.resultDemand ch := by
      unfold Part.resultDemand handDemand
      rw [setDemand_results]
    rw [List.foldl_cons, ih, results]
    unfold handDemand
    rw [setDemand_demand]
    by_cases own : k = ch
    · simp [own]
    · simp [own, Ne.symm own]

/-- After the handing every lamp-type channel has its result as demand (R104, R105). -/
theorem handResults_demand {s : Part} {ch : Fin 25} (mode : s.mode = .running) (lamp : lampType ch = true) :
    ((handResults s).chan ch).demand = s.resultDemand ch := by
  have rests : ∀ t, SameDemands t (flasherRest t) := fun t => .ite (.refl t) (.of_eq rfl rfl)
  unfold handResults
  rw [if_pos (.inl mode), (rests _).demand, handDemands_demand]
  split
  · rfl
  · rename_i unchanged
    by_contra differs
    exact unchanged (mem_changedChans.2 ⟨lamp, Ne.symm differs⟩)

/-- An evaluation in RUNNING gives every lamp-type channel the demand of its result (R103 to R105). -/
theorem evaluateRules_demand {s : Part} {ch : Fin 25} (mode : s.mode = .running) (lamp : lampType ch = true) :
    ((evaluateRules s).chan ch).demand = (s.resultOf ch).demand := by
  have awake : s.mode ≠ .held := by rw [mode]; exact Mode.noConfusion
  unfold evaluateRules
  rw [if_neg awake]
  refine (handResults_demand (s := { s with lamps := { s.lamps with results := s.results } }) mode lamp).trans ?_
  exact congrArg LampResult.demand (tab_get ..)

/-! ### What the results depend on -/

theorem satisfied_congr {s t : Part} (inputs : t.inputs = s.inputs) (ignition : t.ignition = s.ignition) :
    t.satisfied = s.satisfied := by
  funext r
  unfold Part.satisfied Part.input
  rw [inputs, ignition]

section
variable {s t : Part} (inputs : t.inputs = s.inputs) (tables : t.tables = s.tables)
  (ignition : t.ignition = s.ignition)
include inputs tables ignition

theorem deciding_congr : t.deciding = s.deciding := by
  have better : t.better = s.better := by
    funext ch best i
    unfold Part.better
    rw [tables, satisfied_congr inputs ignition]
  funext ch
  unfold Part.deciding
  rw [better]

theorem resultOf_congr : t.resultOf = s.resultOf := by
  have action : t.actionDemand = s.actionDemand := by
    funext a
    unfold Part.actionDemand Part.dimmerDuty Part.input
    rw [inputs, tables]
  funext ch
  unfold Part.resultOf
  rw [deciding_congr inputs tables ignition, tables, action]

end

/-! ### The deciding rule -/

/-- A rule bids for a channel: it targets the channel and is satisfied (R102). -/
def Part.bids (s : Part) (ch : Fin 25) (i : Fin 32) : Prop :=
  (s.tables.rules.get i).target = ch ∧ s.satisfied (s.tables.rules.get i) = true

/-- A rule goes before another: by priority, then by index (R102). -/
def Part.outbids (s : Part) (i j : Fin 32) : Prop :=
  (s.tables.rules.get j).priority < (s.tables.rules.get i).priority ∨
  (s.tables.rules.get j).priority = (s.tables.rules.get i).priority ∧ i < j

/-- The best bid among a list of rules: none where no rule bids, else one that goes before every other. -/
def Part.bestBid (s : Part) (ch : Fin 25) (is : List (Fin 32)) : Option (Fin 32) → Prop
  | none => ∀ j ∈ is, ¬ s.bids ch j
  | some i => i ∈ is ∧ s.bids ch i ∧ ∀ j ∈ is, s.bids ch j → j ≠ i → s.outbids i j

section
variable {s : Part} {ch : Fin 25}

theorem better_idle {best : Option (Fin 32)} {i : Fin 32} (h : ¬ s.bids ch i) : s.better ch best i = best := if_neg h

theorem better_first {i : Fin 32} (h : s.bids ch i) : s.better ch none i = some i := if_pos h

theorem better_next {i j : Fin 32} (h : s.bids ch i) : s.better ch (some j) i =
    if (s.tables.rules.get j).priority < (s.tables.rules.get i).priority then some i else some j := if_pos h

/-- A rule behind a list takes the decision only from a rule of lower priority (R102). -/
theorem better_bestBid {is : List (Fin 32)} {best : Option (Fin 32)} {i : Fin 32} (h : s.bestBid ch is best)
    (after : ∀ j ∈ is, j < i) : s.bestBid ch (is ++ [i]) (s.better ch best i) := by
  have split : ∀ {j}, j ∈ is ++ [i] → j ∈ is ∨ j = i := fun mem =>
    (List.mem_append.1 mem).imp_right List.mem_singleton.1
  have last : i ∈ is ++ [i] := List.mem_append_right _ (List.mem_singleton_self i)
  by_cases bid : s.bids ch i
  · cases best with
    | none =>
      rw [better_first bid]
      exact ⟨last, bid, fun j mem bids other => absurd bids (h j ((split mem).resolve_right other))⟩
    | some k =>
      obtain ⟨mem, own, before⟩ := h
      rw [better_next bid]
      by_cases lower : (s.tables.rules.get k).priority < (s.tables.rules.get i).priority
      · rw [if_pos lower]
        refine ⟨last, bid, fun j mem' bids other => .inl ?_⟩
        by_cases same : j = k
        · rw [same]
          exact lower
        · rcases before j ((split mem').resolve_right other) bids same with less | ⟨equal, -⟩
          · exact Nat.lt_trans less lower
          · rw [equal]
            exact lower
      · rw [if_neg lower]
        refine ⟨List.mem_append_left _ mem, own, fun j mem' bids other => ?_⟩
        rcases split mem' with earlier | rfl
        · exact before j earlier bids other
        · exact (Nat.lt_or_eq_of_le (Nat.le_of_not_lt lower)).imp_right fun equal => ⟨equal, after k mem⟩
  · rw [better_idle bid]
    cases best with
    | none => exact fun j mem => (split mem).elim (h j) fun same => same ▸ bid
    | some k =>
      obtain ⟨mem, own, before⟩ := h
      exact ⟨List.mem_append_left _ mem, own, fun j mem' bids other =>
        before j ((split mem').resolve_right fun same => bid (same ▸ bids)) bids other⟩

/-- The rules in index order leave the best bid of all. -/
theorem deciding_bestBid (s : Part) (ch : Fin 25) : s.bestBid ch (List.finRange 32) (s.deciding ch) := by
  have fold : ∀ is : List (Fin 32), is.Pairwise (· < ·) → s.bestBid ch is (is.foldl (s.better ch) none) := by
    intro is
    induction is using List.reverseRecOn with
    | nil => exact fun _ _ mem => absurd mem List.not_mem_nil
    | append_singleton is i ih =>
      intro sorted
      obtain ⟨before, -, after⟩ := List.pairwise_append.1 sorted
      rw [List.foldl_append]
      exact better_bestBid (ih before) fun j mem => after j mem i (List.mem_singleton_self i)
  exact fold _ (List.pairwise_lt_finRange 32)

theorem deciding_none (idle : ∀ i, ¬ s.bids ch i) : s.deciding ch = none := by
  have best := deciding_bestBid s ch
  cases decides : s.deciding ch with
  | none => rfl
  | some i =>
    rw [decides] at best
    exact absurd best.2.1 (idle i)

theorem outbids_asymm {i j : Fin 32} (h : s.outbids i j) (k : s.outbids j i) : False := by
  unfold Part.outbids at h k
  omega

/-- A bid that goes before every other decides (R102). -/
theorem deciding_some {i : Fin 32} (bids : s.bids ch i) (first : ∀ j, s.bids ch j → j ≠ i → s.outbids i j) :
    s.deciding ch = some i := by
  have best := deciding_bestBid s ch
  cases decides : s.deciding ch with
  | none =>
    rw [decides] at best
    exact absurd bids (best i (List.mem_finRange i))
  | some k =>
    rw [decides] at best
    obtain ⟨-, own, before⟩ := best
    by_contra other
    have apart : k ≠ i := fun same => other (congrArg some same)
    exact outbids_asymm (first k own apart) (before i (List.mem_finRange i) bids (Ne.symm apart))

theorem resultOf_none (lamp : lampType ch = true) (idle : ∀ i, ¬ s.bids ch i) : (s.resultOf ch).demand = .none := by
  unfold Part.resultOf
  rw [if_pos lamp, deciding_none idle]

theorem resultOf_first {i : Fin 32} (lamp : lampType ch = true) (bids : s.bids ch i)
    (first : ∀ j, s.bids ch j → j ≠ i → s.outbids i j) :
    (s.resultOf ch).demand = s.actionDemand (s.tables.rules.get i).action := by
  unfold Part.resultOf
  rw [if_pos lamp, deciding_some bids first]

end

/-! ### The truth of a rule -/

/-- A term holds of an input: its test on the value, or the stale behaviour where the input is STALE (R100). -/
def Part.holds (s : Part) (stale : RuleStale) (i : Fin 32) (test : Nat → Prop) : Prop :=
  if (s.input i).fresh = true ∨ stale = .hold then test (s.input i).value else stale = .forceOn

theorem termTrue_iff (s : Part) (stale : RuleStale) (i : Fin 32) (test : Nat → Bool) :
    termTrue stale (s.input i) test = true ↔ s.holds stale i fun v => test v = true := by
  unfold termTrue Part.holds
  cases (s.input i).fresh with
  | true => simp
  | false => cases stale <;> simp

/-- The test of term A (R100). -/
def compares (c : Compare) (figure value : Nat) : Prop :=
  match c with
  | .eq => value = figure
  | .ne => value ≠ figure
  | .ge => figure ≤ value

theorem compareTrue_iff (c : Compare) (value figure : Nat) :
    compareTrue c value figure = true ↔ compares c figure value := by
  cases c <;> simp [compareTrue, compares]

/-- When a rule is satisfied (R101). -/
theorem satisfied_iff (s : Part) (r : RuleCfg) : s.satisfied r = true ↔ r.enabled = true ∧
    r.mask.getLsbD (ignitionBit s.ignition) = true ∧ s.holds r.stale r.inputA (compares r.compare r.valueA) ∧
    ∀ b, r.inputB = some b → s.holds r.stale b (· = r.valueB) := by
  unfold Part.satisfied
  simp only [Bool.and_eq_true, termTrue_iff, compareTrue_iff, and_assoc]
  cases r.inputB <;> simp [termTrue_iff]

/-! ### A change of the ignition state in RUNNING -/

theorem handBlocks_demand {s : Part} {ch : Fin 25} (mode : s.mode = .running) (lamp : lampType ch = true) :
    ((handBlocks .running s).chan ch).demand = (s.resultOf ch).demand := by
  have blocks : handBlocks .running s = startTests (selectFan (evaluateRules s)) := if_pos ⟨rfl, mode⟩
  have rest := (SameDemands.selectFan (evaluateRules s)).trans (.startTests _)
  rw [blocks, rest.demand, evaluateRules_demand mode lamp]

/-- Whichever comes first, the new limit changes no demand and no result (R105, entry 6). -/
theorem handMode_demand {s : Part} {ch : Fin 25} (mode : s.mode = .running) (lamp : lampType ch = true) :
    ((handMode .running s).chan ch).demand = (s.resultOf ch).demand := by
  unfold handMode
  split
  · have still := (Reaction.selectLimit s).still
    have running : (selectLimit s).mode = .running :=
      (congrArg Power.mode (Steady.setLimit s.limitFigure s).power).trans mode
    rw [handBlocks_demand running lamp, resultOf_congr still.inputs still.tables still.ignition]
  · have rest := (SameDemands.syncConds (handBlocks .running s)).trans (.selectLimit _)
    rw [rest.demand, handBlocks_demand mode lamp]

theorem settleLine_mode (l : IgnLine) (s : Part) : (settleLine l s).mode = s.mode := by cases l <;> rfl

section
variable {s : State} {l : IgnLine} (on : s.part.on = true) (mode : s.part.mode = .running)
  (runs : (s.part.power.line l).timer ≠ none) (change : (settleLine l s.part).ignition ≠ s.part.ignition)
  (driven : (settleLine l s.part).ignition ≠ .off)

include on mode runs change driven

theorem exec_ignitionDebounceExpiry : exec (.ignitionDebounceExpiry l) s =
    s.nextPart (finish (handMode .running (settleLine l s.part))) := by
  have running : (settleLine l s.part).mode = .running := (settleLine_mode l s.part).trans mode
  have follows : followIgnition (settleLine l s.part) = handMode .running (settleLine l s.part) := by
    unfold followIgnition
    rw [running]
    exact if_neg driven
  refine congrArg s.nextPart ?_
  unfold debounceExpiry
  rw [if_neg (by simpa using runs), on]
  refine (if_neg Bool.false_ne_true).trans ((if_neg change).trans ?_)
  rw [follows]

end

/-- The event of a change of the ignition in RUNNING ends with the demands of the rules. -/
theorem ignitionChange_demand {s : Part} {ch : Fin 25} (mode : s.mode = .running) (lamp : lampType ch = true) :
    ((finish (handMode .running s)).chan ch).demand = (s.resultOf ch).demand := by
  have running : (handMode .running s).mode = .running :=
    (congrArg Power.mode (Steady.handMode .running s).power).trans mode
  have awake : (handMode .running s).staysAwake := .inr (.inl (by rw [running]; exact Mode.noConfusion))
  rw [(finish_outputs _ awake).1.chan, handMode_demand mode lamp]

/-- Settles O47, by the best bid among the rules and the handing of the results. -/
theorem demandsFollowTheRules : Obligations.DemandsFollowTheRules := by
  intro s l on mode runs u line p ign bit holds satisfied rule duty change driven
  let v := settleLine l u
  have bids : ∀ ch i, v.bids ch i ↔ (rule i).target = ch ∧ satisfied (rule i) := fun ch i =>
    and_congr_right fun _ => satisfied_iff v (rule i)
  have demand := fun ch lamp => ignitionChange_demand (s := v) (ch := ch) ((settleLine_mode l u).trans mode) lamp
  refine ⟨_, exec_ignitionDebounceExpiry on mode runs change driven, fun ch lamp idle => ?_,
    fun ch i lamp target holds' first => ?_⟩
  · exact (demand ch lamp).trans (resultOf_none lamp fun i bid => idle ⟨i, (bids ch i).1 bid⟩)
  · have decides := resultOf_first lamp ((bids ch i).2 ⟨target, holds'⟩) fun j bid other => by
      obtain ⟨target', holds''⟩ := (bids ch j).1 bid
      exact first j target' holds'' other
    exact (demand ch lamp).trans decides

end Sys2Proof.Machine
end

section
/-! The fan where grants are made and given back (05: R87, R88; 07: R123, R124): what a granting pass leaves of it, what
it holds after a release, and that a fan in use puts DORMANT entry off (09: R158). -/

namespace Sys2Proof.Machine

/-! ### Granting passes -/

theorem kindOf_fan {ch : Fin 25} (h : kindOf ch = .fan) : ch = fanChan := by
  unfold kindOf at h
  split at h
  · cases h
  · split at h
    · rename_i number
      exact Fin.ext number
    · split at h <;> cases h

theorem handGrant_fan {ch : Fin 25} (other : ch ≠ fanChan) (s : Part) : (handGrant ch s).fan = s.fan := by
  unfold handGrant
  split
  · exact settleLights_fan _
  · exact settleLights_fan _
  · rename_i fan
    exact absurd (kindOf_fan fan) other
  · unfold leaveSettling
    split <;> rfl

/-- A pass with no claim of the fan in the queue leaves the fan alone. -/
theorem grantHeads_fan (n : Nat) {s : Part} (none : s.queued fanChan = []) : (grantHeads n s).fan = s.fan := by
  induction n generalizing s with
  | zero => rfl
  | succ n ih =>
    unfold grantHeads
    split
    · rfl
    · rename_i c cs claims
      have other : c.chan ≠ fanChan := fun own => by
        have waits : c ∈ s.queued fanChan := by
          unfold Part.queued
          rw [claims]
          exact List.mem_filter.2 ⟨List.mem_cons_self, by simpa using own⟩
        rw [none] at waits
        cases waits
      have left : (grantHead c cs s).queued fanChan = [] :=
        ((Leaves.popClaim s claims other).trans (.giveGrant _ c.amount other)).queued.trans none
      split
      · exact (ih left).trans (handGrant_fan other _)
      · rfl

/-- What grants keep of a fan: its target, retry count and stall wait, and that it holds a grant or a claim (R123). -/
structure Fan.KeepsOn (f g : Fan) : Prop where
  target : g.target = f.target
  retry : g.retry = f.retry
  stallWait : g.stallWait = f.stallWait
  busy : f.state.busy = true → g.state.busy = true

theorem Fan.KeepsOn.refl (f : Fan) : f.KeepsOn f := ⟨rfl, rfl, rfl, id⟩

theorem Fan.KeepsOn.trans {f g h : Fan} (a : f.KeepsOn g) (b : g.KeepsOn h) : f.KeepsOn h :=
  ⟨b.target.trans a.target, b.retry.trans a.retry, b.stallWait.trans a.stallWait, b.busy ∘ a.busy⟩

theorem atDuty_busy (f : Fan) (d : Nat) : (f.atDuty d).state.busy = true := by
  unfold Fan.atDuty
  by_cases reached : d = f.target
  · simp [reached, FanState.busy]
  · simp [reached, FanState.busy]

theorem Fan.KeepsOn.atDuty (f : Fan) (d : Nat) : f.KeepsOn (f.atDuty d) := ⟨rfl, rfl, rfl, fun _ => atDuty_busy f d⟩

theorem giveGrant_keepsOn (ch : Fin 25) (amount : Nat) (s : Part) : s.fan.KeepsOn (giveGrant ch amount s).fan := by
  by_cases own : ch = fanChan
  · subst own
    exact ⟨rfl, rfl, rfl, fun _ => atDuty_busy s.fan _⟩
  · have same : (giveGrant ch amount s).fan = s.fan := handGrant_fan own _
    rw [same]
    exact .refl _

theorem grantHeads_keepsOn (n : Nat) (s : Part) : s.fan.KeepsOn (grantHeads n s).fan := by
  induction n generalizing s with
  | zero => exact .refl _
  | succ n ih =>
    unfold grantHeads
    split
    · exact .refl _
    · rename_i c cs claims
      split
      · exact (giveGrant_keepsOn c.chan c.amount (s.setArbiter { s.arbiter with claims := cs })).trans (ih _)
      · exact .refl _

theorem makeClaim_keepsOn (ch : Fin 25) (amount : Nat) (s : Part) : s.fan.KeepsOn (makeClaim ch amount s).fan := by
  unfold makeClaim
  split
  · exact grantHeads_keepsOn _ (s.setArbiter (s.arbiter.reprice ch amount))
  · split
    · exact giveGrant_keepsOn ch amount s
    · exact grantHeads_keepsOn _ (s.setArbiter { s.arbiter with claims := insertClaim _ _ })

/-- The record of a fan that claims for its next duty (R123). -/
def Fan.claiming (f : Fan) (next : Nat) : Fan := { f with ramp := none, nextDuty := next }

theorem fanStep_paid {s : Part} (paid : s.fanClaim s.fan.target = none) :
    fanStep s = s.setFan (s.fan.atDuty (s.fanNext s.fan.target)) := by
  unfold fanStep
  simp only [paid]

theorem fanStep_claims {s : Part} {amount : Nat} (claims : s.fanClaim s.fan.target = some amount) :
    fanStep s = makeClaim fanChan amount (s.setFan (s.fan.claiming (s.fanNext s.fan.target))) := by
  unfold fanStep
  simp only [claims]
  rfl

theorem fanStep_keepsOn (s : Part) : s.fan.KeepsOn (fanStep s).fan := by
  cases claim : s.fanClaim s.fan.target with
  | none =>
    rw [fanStep_paid claim]
    exact .atDuty ..
  | some amount =>
    rw [fanStep_claims claim]
    have same : s.fan.KeepsOn (s.fan.claiming (s.fanNext s.fan.target)) := ⟨rfl, rfl, rfl, id⟩
    exact same.trans (makeClaim_keepsOn fanChan amount (s.setFan _))

/-! ### A release -/

/-- What the fan holds: its record, its grant, and no claim. -/
structure Part.FanHolds (s : Part) (f : Fan) (grant : Nat) : Prop where
  fan : s.fan = f
  grant : s.grant fanChan = grant
  claim : s.claimOf fanChan = none

theorem Part.FanHolds.passAfter {s : Part} {f : Fan} {g : Nat} (h : s.FanHolds f g) (old : Part) :
    (passAfter old s).FanHolds f g := by
  have none := (claimOf_none_iff s fanChan).1 h.claim
  obtain ⟨none', grant, -⟩ := (Spares.passAfter old s).idle none
  refine ⟨?_, grant.trans h.grant, (claimOf_none_iff _ _).2 none'⟩
  unfold Machine.passAfter
  split
  · exact h.fan
  · exact (grantHeads_fan _ none).trans h.fan

theorem Part.FanHolds.outputs {s t : Part} {f : Fan} {g : Nat} (h : s.FanHolds f g) (k : SameOutputs s t) :
    t.FanHolds f g := by
  obtain ⟨-, arbiter, -, fan, -⟩ := k
  refine ⟨fan.trans h.fan, ?_, ?_⟩
  · unfold Part.grant
    rw [arbiter]
    exact h.grant
  · unfold Part.claimOf
    rw [arbiter]
    exact h.claim

/-- The grant lowered, with no claim of the fan waiting, and the pass that follows (R124). -/
theorem lower_fanHolds {s : Part} {a : Arbiter} (f : Fan) (keep : Nat) (grants : a.grants = s.arbiter.grants)
    (none : a.claims.filter (·.chan == fanChan) = []) :
    (passAfter s ((s.setArbiter (a.lower fanChan keep)).setFan f)).FanHolds f (min keep (s.grant fanChan)) := by
  have lowered : ((s.setArbiter (a.lower fanChan keep)).setFan f).grant fanChan = min keep (s.grant fanChan) := by
    refine (lower_grants ..).trans ?_
    rw [if_pos rfl, grants]
    rfl
  exact Part.FanHolds.passAfter ⟨rfl, lowered, (claimOf_none_iff _ fanChan).2 none⟩ s

/-- The claim withdrawn and the grant lowered, with the pass that follows (R124). -/
theorem release_fanHolds (s : Part) (f : Fan) (keep : Nat) :
    (passAfter s ((s.setArbiter ((s.arbiter.unclaim fanChan).lower fanChan keep)).setFan f)).FanHolds f
      (min keep (s.grant fanChan)) :=
  lower_fanHolds f keep rfl ((unclaim_queued ..).trans (if_pos rfl))

/-- The claim withdrawn and the whole grant given back, with the pass that follows. -/
theorem vacate_fanHolds (s : Part) (f : Fan) :
    (passAfter s ((s.setArbiter (s.arbiter.vacate fanChan)).setFan f)).FanHolds f 0 := by
  have released := release_fanHolds s f 0
  rwa [Nat.zero_min] at released

/-! ### The end of the event -/

theorem chanState_fan_ne_off {s : Part} (used : s.fan.state ≠ .stopped) (spins : s.fan.state ≠ .stallWait) :
    s.chanState fanChan ≠ .off := by
  show (if s.fan.shedMark then ChanState.shed else _) ≠ _
  split
  · exact ChanState.noConfusion
  · cases state : s.fan.state with
    | stopped => exact absurd state used
    | stallWait => exact absurd state spins
    | waiting | ramping | running | latched => exact ChanState.noConfusion

/-- A fan in use, or LATCHED, keeps DORMANT entry off (09: R158). -/
theorem finish_fanUsed {s : Part} (used : s.fan.state ≠ .stopped) (spins : s.fan.state ≠ .stallWait) :
    SameOutputs s (finish s) := by
  refine (finish_outputs s (.inr (.inr (.inr (.inr (.inl ?_)))))).1
  exact List.all_eq_false.2 ⟨fanChan, mem_allChans _, by simpa using chanState_fan_ne_off used spins⟩

theorem busy_iff (st : FanState) : st.busy = true ↔ st = .waiting ∨ st = .ramping ∨ st = .running := by
  cases st <;> simp [FanState.busy]

theorem finish_fanBusy {s : Part} (busy : s.fan.state.busy = true) : SameOutputs s (finish s) :=
  finish_fanUsed (fun e => by rw [e] at busy; cases busy) fun e => by rw [e] at busy; cases busy

end Sys2Proof.Machine
end

section
/-! The faults of the fan (07: R126 to R128; obligation O51). -/

namespace Sys2Proof.Machine

/-! ### Stall and overload -/

theorem sampleFan_stalls {current : Nat} {s : Part} (stalls : s.stalls current = true) :
    sampleFan current s = stallFan (measureFan current s) := by
  simp only [Part.stalls, Bool.and_eq_true, beq_iff_eq, decide_eq_true_eq] at stalls
  obtain ⟨⟨running, count⟩, low⟩ := stalls
  unfold sampleFan
  rw [if_pos running, if_pos low, if_pos count]

/-- The record of a fan that has stalled (R126). -/
def Fan.stalled (f : Fan) : Fan :=
  { f with state := .stallWait, duty := 0, ramp := none, overload := none, stallCount := 0, stallWait := some 5000 }

theorem stallFan_holds (s : Part) : (stallFan s).FanHolds s.fan.stalled 0 := vacate_fanHolds s _

/-- The sample that stalls the fan is the measured current of channel 12 (04: R66). -/
theorem stallFan_measured (s : Part) : ((stallFan s).chan fanChan).measured = (s.chan fanChan).measured := by
  let given := (s.setArbiter (s.arbiter.vacate fanChan)).setFan s.fan.stalled
  have none : given.queued fanChan = [] := (unclaim_queued ..).trans (if_pos rfl)
  obtain ⟨-, -, chan⟩ := (Spares.passAfter s given).idle none
  exact untimed_field Chan.measured (fun _ => rfl) chan

/-- The record of a fan that has latched by an overload (R128). -/
def Fan.overloaded (f : Fan) : Fan :=
  { f with state := .latched, duty := 0, ramp := none, overload := none, stallCount := 0, latchCause := .overload }

theorem overloadFan_holds (s : Part) : (overloadFan s).FanHolds s.fan.overloaded 0 := vacate_fanHolds s _

/-! ### The end of a stall wait -/

theorem endStallWait_latches {s : Part} (retries : 3 ≤ s.fan.retry) : endStallWait s =
    s.setFan { s.fan with state := .latched, stallWait := none, latchCause := .stall } := if_neg (Nat.not_lt.2 retries)

/-- The record of a fan that tries again (R127). -/
def Fan.retried (f : Fan) : Fan := { f with state := .waiting, stallWait := none, retry := f.retry + 1 }

theorem endStallWait_keepsOn {s : Part} (retries : s.fan.retry < 3) : s.fan.retried.KeepsOn (endStallWait s).fan := by
  unfold endStallWait
  rw [if_pos retries]
  exact fanStep_keepsOn (s.setFan s.fan.retried)

/-! ### The commands -/

section
variable {s : State} (on : s.part.on = true)
include on

theorem exec_stall {a : Nat} (stalls : s.part.stalls a = true) : exec (.stall a) s =
    s.nextPart (finish (stallFan (measureFan a s.part))) := by
  rw [← sampleFan_stalls stalls]
  exact congrArg s.nextPart (eventIf_eq (sampleFan a) on stalls)

theorem exec_stallWaitExpiry (state : s.part.fan.state = .stallWait) (runs : s.part.fan.stallWait ≠ none) :
    exec .stallWaitExpiry s = s.nextPart (finish (endStallWait s.part)) :=
  congrArg s.nextPart (eventIf_eq endStallWait on (by simp [state, Option.isSome_iff_ne_none.2 runs]))

theorem exec_fanOverloadLevelCrossing (mA : Nat) (driven : 0 < s.part.fan.duty) :
    exec (.fanOverloadLevelCrossing mA) s = s.nextPart (finish (crossFanLevel mA s.part)) :=
  congrArg s.nextPart (eventIf_eq (crossFanLevel mA) on (decide_eq_true driven))

theorem exec_fanOverload (driven : 0 < s.part.fan.duty) (runs : s.part.fan.overload ≠ none) :
    exec .fanOverload s = s.nextPart (finish (overloadFan s.part)) :=
  congrArg s.nextPart (eventIf_eq overloadFan on (by simp [driven, Option.isSome_iff_ne_none.2 runs]))

end

theorem crossFanLevel_fan (mA : Nat) (s : Part) : (crossFanLevel mA s).fan = { s.fan with
    overload := if 3 * (100 * s.tables.fan.nominal) * s.fan.duty < 2 * 100 * mA then some (s.fan.overload.getD 50)
      else none } := by
  simp [crossFanLevel, aboveFanLevel]

/-- Settles O51: a stall and an overload vacate the fan's place in the budget, and a fan in use or LATCHED keeps its
outputs to the end of the event. -/
theorem fanFaultsStopIt : Obligations.FanFaultsStopIt := by
  intro s on u f level
  refine ⟨fun a state count low deferral => ?_, fun state runs => ?_,
    fun state driven => ⟨fun mA => ?_, fun runs => ?_⟩⟩
  · have stalls : u.stalls a = true := by
      simp only [Part.stalls, Bool.and_eq_true, beq_iff_eq, decide_eq_true_eq]
      exact ⟨⟨state, count⟩, low⟩
    have aware : SameReach u (stallFan (measureFan a u)) :=
      (SameReach.setChan u _ _).trans (.passAfter _ ((SameReach.setArbiter _ _).trans (.setFan _ _)))
    have ended := (finish_outputs _ (.inl (aware.deferral deferral))).1
    obtain ⟨fan, grant, claim⟩ := (stallFan_holds (measureFan a u)).outputs ended
    refine ⟨_, exec_stall on stalls, fan, ?_, grant, claim⟩
    rw [ended.chan, stallFan_measured]
    exact congrArg Chan.measured (setChan_chan ..)
  · refine ⟨_, exec_stallWaitExpiry on state runs, fun retries => ?_, fun retries _ => ?_⟩
    · rw [endStallWait_latches retries]
      obtain ⟨-, arbiter, -, fan, -⟩ := finish_fanUsed
        (s := u.setFan { f with state := .latched, stallWait := none, latchCause := .stall })
        FanState.noConfusion FanState.noConfusion
      exact ⟨fan, arbiter⟩
    · obtain ⟨target, retry, wait, busy⟩ := endStallWait_keepsOn retries
      obtain ⟨-, -, -, fan, -⟩ := finish_fanBusy (busy rfl)
      rw [fan]
      exact ⟨retry, wait, target, (busy_iff _).1 (busy rfl)⟩
  · have crossed := crossFanLevel_fan mA u
    have busy : (crossFanLevel mA u).fan.state.busy = true := (busy_iff _).2 (.inr (by rw [crossed]; exact state))
    have ended := finish_fanBusy busy
    obtain ⟨channels, arbiter, lamps, fan, gauges⟩ := ended
    exact ⟨_, exec_fanOverloadLevelCrossing on mA driven, fan.trans crossed, channels, arbiter, lamps, rfl, gauges⟩
  · have latched := overloadFan_holds u
    have ended : SameOutputs (overloadFan u) (finish (overloadFan u)) := finish_fanUsed
      (by rw [latched.fan]; exact FanState.noConfusion) (by rw [latched.fan]; exact FanState.noConfusion)
    obtain ⟨fan, grant, claim⟩ := latched.outputs ended
    exact ⟨_, exec_fanOverload on driven runs, fan, grant, claim⟩

end Sys2Proof.Machine
end

section
/-! The ramp steps of the fan (07: R122, R123): the size of its claim, the duty a grant pays for, and what a step comes
to. -/

namespace Sys2Proof.Machine

/-! ### The size of a claim -/

/-- The amount of a fan claim for the next duty N toward the target T, with a grant held (R122). -/
def Part.fanAmount (v : Part) (N T g : Nat) : Nat :=
  if v.arbiter.limit < v.tables.power.capacity ∧ v.tables.fan.grain < 255 then
    min (need v.tables.fan.nominal N - g) v.tables.fan.grain
  else need v.tables.fan.nominal T - g

theorem sizeClaim_paid {c : FanCfg} {dec : Bool} {D T g : Nat} (paid : need c.nominal (nextDuty c.rampStep D T) ≤ g) :
    sizeClaim c dec D T g = none := if_pos paid

theorem sizeClaim_amount {v : Part} {D T g : Nat}
    (short : g < need v.tables.fan.nominal (nextDuty v.tables.fan.rampStep D T)) :
    sizeClaim v.tables.fan v.decomposed D T g = some (v.fanAmount (nextDuty v.tables.fan.rampStep D T) T g) := by
  unfold sizeClaim Part.fanAmount Part.decomposed
  simp only [if_neg (Nat.not_le.2 short), Bool.and_eq_true, decide_eq_true_eq, apply_ite some]

theorem need_zero (nominal : Nat) : need nominal 0 = 0 := by simp [need]

theorem need_pos {nominal duty : Nat} (used : 0 < nominal) (driven : 0 < duty) : 0 < need nominal duty := by
  have product := Nat.mul_pos driven used
  unfold need
  omega

/-- The first claim toward a target (R122). -/
theorem firstClaim_amount {v : Part} {T : Nat} (used : 0 < v.tables.fan.nominal) (step : 0 < v.tables.fan.rampStep)
    (driven : 0 < T) : v.firstClaim T = v.fanAmount (min v.tables.fan.rampStep T) T 0 := by
  have next : nextDuty v.tables.fan.rampStep 0 T = min v.tables.fan.rampStep T :=
    congrArg (min · T) (Nat.zero_add _)
  have short := need_pos used (lt_min step driven)
  rw [← next] at short ⊢
  unfold Part.firstClaim
  rw [sizeClaim_amount short]
  rfl

/-! ### The duty a grant pays for -/

/-- The highest duty up to a bound that an amount pays for (R122). -/
theorem highestPaid_highest (nominal paid N : Nat) : highestPaid nominal paid N ≤ N ∧
    need nominal (highestPaid nominal paid N) ≤ paid ∧
    (highestPaid nominal paid N < N → paid < need nominal (highestPaid nominal paid N + 1)) := by
  induction N with
  | zero =>
    exact ⟨Nat.le_refl _, (need_zero nominal).trans_le (Nat.zero_le _), fun below => absurd below (Nat.lt_irrefl _)⟩
  | succ d ih =>
    obtain ⟨le, pays, next⟩ := ih
    unfold highestPaid
    split
    · rename_i whole
      exact ⟨Nat.le_refl _, whole, fun below => absurd below (Nat.lt_irrefl _)⟩
    · rename_i short
      refine ⟨Nat.le_succ_of_le le, pays, fun _ => ?_⟩
      rcases Nat.lt_or_eq_of_le le with below | reached
      · exact next below
      · rw [reached]
        exact Nat.not_le.1 short

/-! ### What a step comes to -/

/-- The fan stands at a duty on its way to a target (R123). -/
def Part.fanMoved (T : Nat) (t : Part) (d : Nat) : Prop :=
  t.fan.duty = d ∧ t.fan.target = T ∧ t.fan.stallCount = 0 ∧
  (d = T → t.fan.state = .running ∧ t.fan.ramp = none) ∧
  (d ≠ T → t.fan.state = .ramping ∧ t.fan.ramp = some 100)

/-- A ramp step toward a target, in a state, has been taken: the next duty where the grant pays for it, else a claim
that is granted at once or waits (R123). -/
def Part.fanStepped (v : Part) (st : FanState) (T : Nat) (t : Part) : Prop :=
  let N := min (v.fan.duty + v.tables.fan.rampStep) T
  let g := v.grant fanChan
  let amount := v.fanAmount N T g
  (need v.tables.fan.nominal N ≤ g → t.fanMoved T N ∧ t.arbiter = v.arbiter) ∧
  (g < need v.tables.fan.nominal N → v.arbiter.claims = [] → v.committed + amount ≤ v.arbiter.limit →
    t.grant fanChan = g + amount ∧ t.claimOf fanChan = none ∧ t.fan.shedMark = false ∧
    ∃ d, d ≤ N ∧ need v.tables.fan.nominal d ≤ g + amount ∧
      (d < N → g + amount < need v.tables.fan.nominal (d + 1)) ∧ t.fanMoved T d) ∧
  (g < need v.tables.fan.nominal N → v.arbiter.claims = [] → v.arbiter.limit < v.committed + amount →
    t.grant fanChan = g ∧ t.fan.duty = v.fan.duty ∧ t.fan.target = T ∧ t.fan.state = st ∧ t.fan.ramp = none ∧
    t.claimOf fanChan = some { chan := fanChan, amount := amount, cls := .comfort, shed := false })

theorem atDuty_moved {t : Part} {f : Fan} {d : Nat} {shed : Bool} (fan : t.fan = { f.atDuty d with shedMark := shed }) :
    t.fanMoved f.target d := by
  unfold Part.fanMoved
  rw [fan]
  exact ⟨rfl, rfl, rfl, fun reached => ⟨if_pos reached, if_pos reached⟩, fun below => ⟨if_neg below, if_neg below⟩⟩

/-- The fan at a grant of its own: the highest duty it pays for (R123). -/
theorem giveGrant_fanMoved (amount : Nat) (s : Part) :
    let t := giveGrant fanChan amount s
    let g := s.grant fanChan + amount
    t.grant fanChan = g ∧ t.fan.shedMark = false ∧
      t.fanMoved s.fan.target (highestPaid s.tables.fan.nominal g s.fan.nextDuty) := by
  intro t g
  have grant : t.grant fanChan = g := by
    unfold Part.grant
    rw [giveGrant_arbiter, give_grants, if_pos rfl]
    rfl
  have fan : t.fan = { s.fan.atDuty (highestPaid s.tables.fan.nominal (t.grant fanChan) s.fan.nextDuty) with
    shedMark := false } := rfl
  refine ⟨grant, congrArg Fan.shedMark fan, ?_⟩
  rw [← grant]
  exact atDuty_moved fan

/-- A claim of the fan that does not fit waits alone (05: R85). -/
theorem makeClaim_fanWaits {s : Part} {amount : Nat} (empty : s.arbiter.claims = [])
    (tight : s.arbiter.limit < s.committed + amount) : makeClaim fanChan amount s = s.setArbiter { s.arbiter with
      claims := [{ chan := fanChan, amount := amount, cls := .comfort, shed := false }] } := by
  have none : s.claimOf fanChan = none := by
    unfold Part.claimOf
    rw [empty]
    rfl
  refine makeClaim_joins (pre := []) (post := []) rfl none empty nofun nofun ?_
  rintro x xs head
  cases head
  exact tight

/-- What a ramp step comes to, for a fan whose record has been readied for it (R123). -/
theorem fanStep_stepped (v : Part) {f : Fan} (duty : f.duty = v.fan.duty) :
    v.fanStepped f.state f.target (fanStep (v.setFan f)) := by
  unfold Part.fanStepped
  intro N g amount
  let w := v.setFan f
  have next : w.fanNext f.target = N := by
    show min (f.duty + v.tables.fan.rampStep) f.target = _
    rw [duty]
  have size : w.fanClaim f.target = sizeClaim v.tables.fan v.decomposed v.fan.duty f.target g := by
    rw [← duty]
    rfl
  let x := w.setFan (f.claiming N)
  have claims : g < need v.tables.fan.nominal N → fanStep w = makeClaim fanChan amount x := fun short => by
    have claimed := fanStep_claims (s := w) (size.trans (sizeClaim_amount short))
    rw [setFan_fan, next] at claimed
    exact claimed
  refine ⟨fun paid => ?_, fun short empty fits => ?_, fun short empty tight => ?_⟩
  · rw [fanStep_paid (s := w) (size.trans (sizeClaim_paid paid)), setFan_fan, next]
    exact ⟨atDuty_moved (shed := f.shedMark) rfl, rfl⟩
  · rw [claims short, makeClaim_fits (s := x) empty fits]
    obtain ⟨grant, shed, moved⟩ := giveGrant_fanMoved amount x
    obtain ⟨le, pays, highest⟩ := highestPaid_highest v.tables.fan.nominal (g + amount) N
    refine ⟨grant, ?_, shed, _, le, pays, highest, moved⟩
    unfold Part.claimOf
    rw [giveGrant_arbiter]
    exact congrArg (List.find? _) empty
  · rw [claims short, makeClaim_fanWaits (s := x) empty tight]
    exact ⟨rfl, duty, rfl, rfl, rfl, rfl⟩

theorem Part.fanStepped.outputs {v t u : Part} {st : FanState} {T : Nat} (h : v.fanStepped st T t)
    (k : SameOutputs t u) : v.fanStepped st T u := by
  obtain ⟨-, arbiter, -, fan, -⟩ := k
  unfold Part.fanStepped Part.fanMoved Part.grant Part.claimOf at h ⊢
  rw [arbiter, fan]
  exact h

theorem exec_rampStep {s : State} (on : s.part.on = true) (state : s.part.fan.state = .ramping)
    (runs : s.part.fan.ramp ≠ none) : exec .rampStep s = s.nextPart (finish (fanStep s.part)) :=
  congrArg s.nextPart (eventIf_eq fanStep on (by simp [state, Option.isSome_iff_ne_none.2 runs]))

end Sys2Proof.Machine
end

section
/-! The target of the fan: how a change of it acts in each state (07: R124, Table 3), how it is selected (07: R119,
R120, R129), and the fan's statement as a whole (obligation O50). -/

namespace Sys2Proof.Machine

/-! ### The rows of Table 3 -/

section
variable {s : Part} {T : Nat} (new : T ≠ s.fan.target)
include new

theorem setTarget_stopped (state : s.fan.state = .stopped) : s.fanStepped .waiting T (setTarget T s) := by
  unfold setTarget
  rw [if_neg new]
  simp only [state]
  exact fanStep_stepped s (f := { s.fan with target := T, state := .waiting }) rfl

theorem setTarget_running (state : s.fan.state = .running) (above : s.fan.duty < T) :
    s.fanStepped .ramping T (setTarget T s) := by
  unfold setTarget
  rw [if_neg new]
  simp only [state, if_neg (Nat.ne_of_gt (Nat.zero_lt_of_lt above)), if_neg (Nat.not_le.2 above)]
  exact fanStep_stepped s (f := { s.fan with target := T, state := .ramping, stallCount := 0 }) rfl

theorem setTarget_ramping (state : s.fan.state = .ramping) (above : s.fan.duty < T) :
    setTarget T s = raiseFan T s := by
  unfold setTarget
  rw [if_neg new]
  simp only [state, if_neg (Nat.ne_of_gt (Nat.zero_lt_of_lt above)), if_neg (Nat.not_le.2 above)]

theorem setTarget_below (state : s.fan.state = .ramping ∨ s.fan.state = .running) (driven : 0 < T)
    (below : T ≤ s.fan.duty) : setTarget T s = cutFan T s := by
  unfold setTarget
  rw [if_neg new]
  rcases state with state | state <;> simp only [state, if_neg (Nat.ne_of_gt driven), if_pos below]

theorem setTarget_waiting (state : s.fan.state = .waiting) (driven : 0 < T) : setTarget T s = reclaimFan T s := by
  unfold setTarget
  rw [if_neg new]
  simp only [state, if_neg (Nat.ne_of_gt driven)]

theorem setTarget_stallWait (state : s.fan.state = .stallWait) (driven : 0 < T) :
    setTarget T s = s.setFan { s.fan with target := T } := by
  unfold setTarget
  rw [if_neg new]
  simp only [state, if_neg (Nat.ne_of_gt driven)]

theorem setTarget_latched (state : s.fan.state = .latched) : setTarget T s = s.setFan { s.fan with target := T } := by
  unfold setTarget
  rw [if_neg new]
  simp only [state]

end

theorem setTarget_zero {s : Part} (new : 0 ≠ s.fan.target)
    (state : s.fan.state = .waiting ∨ s.fan.state = .ramping ∨ s.fan.state = .running ∨ s.fan.state = .stallWait) :
    (setTarget 0 s).FanHolds Fan.stopped 0 := by
  have stops : setTarget 0 s = stopFan s := by
    unfold setTarget
    rw [if_neg new]
    rcases state with state | state | state | state <;> simp only [state, if_true]
  rw [stops]
  exact vacate_fanHolds s Fan.stopped

/-! ### A target at or below the duty -/

/-- The record of a fan cut to its duty, or below it (R124). -/
def Fan.cut (f : Fan) (target : Nat) : Fan :=
  if target = f.duty then { f with target := target, state := .running, ramp := none }
  else { f with target := target, duty := target, state := .running, ramp := none, stallCount := 0, overload := none }

theorem cutFan_holds (T : Nat) (s : Part) :
    (cutFan T s).FanHolds (s.fan.cut T) (min (need s.tables.fan.nominal T) (s.grant fanChan)) := by
  have record : s.fan.cut T = if T = s.fan.duty then { s.fan with target := T, state := .running, ramp := none }
      else Fan.atDuty { s.fan with target := T } T := by
    unfold Fan.cut Fan.atDuty
    simp only [if_true]
  rw [record]
  exact release_fanHolds s _ _

/-! ### A target above the duty of a RAMPING fan -/

theorem waits_eq_true {s : Part} {ch : Fin 25} (waits : s.claimOf ch ≠ none) : s.arbiter.waits ch = true := by
  obtain ⟨c, found⟩ := Option.ne_none_iff_exists'.1 waits
  have own : (c.chan == ch) = true := List.find?_some (p := fun c : Claim => c.chan == ch) found
  exact List.any_eq_true.2 ⟨c, List.mem_of_find?_eq_some found, own⟩

theorem raiseFan_holds {s : Part} (T : Nat) (none : s.claimOf fanChan = none) : (raiseFan T s).FanHolds
    { s.fan with target := T } (min (need s.tables.fan.nominal T) (s.grant fanChan)) := by
  have idle := (claimOf_none_iff s fanChan).1 none
  unfold raiseFan
  simp only [waits_eq_false idle, Bool.false_eq_true, if_false]
  exact lower_fanHolds _ _ rfl idle

/-- No claim at the head of a queue fits. -/
def Part.blocks (s : Part) (q : List Claim) : Prop := ∀ c cs, q = c :: cs → s.arbiter.limit < s.committed + c.amount

theorem lower_committed {a : Arbiter} {ch : Fin 25} {keep : Nat} (paid : a.grants.get ch ≤ keep) :
    (a.lower ch keep).committed = a.committed := by
  refine congrArg List.sum (List.map_congr_left fun c _ => (lower_grants ..).trans ?_)
  split
  · rename_i same
    rw [← same, Nat.min_eq_right paid]
  · rfl

/-- The grant above the need of a target given back, and the target recorded (R124). -/
def Part.raised (s : Part) (T : Nat) : Part :=
  (s.setArbiter (s.arbiter.lower fanChan (need s.tables.fan.nominal T))).setFan { s.fan with target := T }

theorem raiseFan_claims {s : Part} {T amount : Nat} (waits : s.claimOf fanChan ≠ none)
    (claims : (s.raised T).fanClaim T = some amount) : raiseFan T s =
      grantPass (((s.raised T).setArbiter ((s.raised T).arbiter.reprice fanChan amount)).setFan
        { s.fan with target := T, nextDuty := s.fanNext T }) := by
  unfold Part.raised at claims
  unfold raiseFan
  simp only [waits_eq_true waits, if_true, claims]
  rfl

/-- A waiting piece replaced in its place, by the claim of the step toward the new target (R124; entry 49). -/
theorem raiseFan_reprices {s : Part} {T amount : Nat} (waits : s.claimOf fanChan ≠ none)
    (held : s.grant fanChan ≤ need s.tables.fan.nominal T)
    (short : s.grant fanChan < need s.tables.fan.nominal (s.fanNext T))
    (size : amount = s.fanAmount (s.fanNext T) T (s.grant fanChan))
    (blocked : s.blocks (s.arbiter.reprice fanChan amount).claims) :
    (raiseFan T s).arbiter.claims = (s.arbiter.reprice fanChan amount).claims ∧
    (raiseFan T s).fan = { s.fan with target := T, nextDuty := s.fanNext T } := by
  have grant : (s.raised T).grant fanChan = s.grant fanChan :=
    ((lower_grants ..).trans (if_pos rfl)).trans (Nat.min_eq_right held)
  have claims : (s.raised T).fanClaim T = some amount := by
    unfold Part.fanClaim
    rw [grant, size]
    exact sizeClaim_amount short
  have committed : (s.raised T).committed = s.committed := lower_committed held
  rw [raiseFan_claims waits claims, grantPass_blocked]
  · exact ⟨rfl, rfl⟩
  · intro c cs head
    have tight := blocked c cs head
    rw [← committed] at tight
    exact tight

/-! ### A new target of a WAITING fan -/

/-- A waiting claim takes its new amount in its place, and the head of the queue does not fit (05: R85, R88). -/
theorem makeClaim_reprices {s : Part} {ch : Fin 25} {amount : Nat} (waits : s.claimOf ch ≠ none)
    (blocked : s.blocks (s.arbiter.reprice ch amount).claims) :
    makeClaim ch amount s = s.setArbiter (s.arbiter.reprice ch amount) := by
  unfold makeClaim
  rw [if_pos (waits_eq_true waits)]
  exact grantPass_blocked blocked

theorem reclaimFan_reprices {s : Part} {T : Nat} (waits : s.claimOf fanChan ≠ none)
    (blocked : s.blocks (s.arbiter.reprice fanChan (s.firstClaim T)).claims) :
    (reclaimFan T s).arbiter.claims = (s.arbiter.reprice fanChan (s.firstClaim T)).claims ∧
    (reclaimFan T s).fan = { s.fan with target := T, nextDuty := nextDuty s.tables.fan.rampStep 0 T } := by
  let w := s.setFan { s.fan with target := T, nextDuty := nextDuty s.tables.fan.rampStep 0 T }
  have replaced := makeClaim_reprices (s := w) (amount := s.firstClaim T) waits blocked
  exact ⟨congrArg (fun t : Part => t.arbiter.claims) replaced, congrArg Part.fan replaced⟩

/-! ### The selection -/

theorem fanPosition_eq (s : Part) : s.fanPosition =
    if (s.input s.tables.fan.input).fresh = true ∨ s.tables.fan.stale = .hold then
      (s.input s.tables.fan.input).value
    else 0 := by
  unfold Part.fanPosition
  cases fresh : (s.input s.tables.fan.input).fresh with
  | true => simp [fresh]
  | false =>
    cases stale : s.tables.fan.stale with
    | hold => simp
    | off => simp [fresh]

theorem permits_iff (p : FanPermission) (i : Ignition) : permits p i = true ↔
    p = .run ∧ (i = .run ∨ i = .crank) ∨ p = .accRun ∧ i ≠ .off := by
  cases p <;> cases i <;> simp [permits]

theorem fanPermitted_iff (s : Part) : s.fanPermitted = true ↔ s.mode = .running ∧
    (s.tables.fan.permission = .run ∧ (s.ignition = .run ∨ s.ignition = .crank) ∨
      s.tables.fan.permission = .accRun ∧ s.ignition ≠ .off) := by
  unfold Part.fanPermitted
  rw [Bool.and_eq_true, beq_iff_eq, permits_iff]

theorem speed_eq (c : FanCfg) (n : Nat) :
    FanCfg.speed c n = if n = 1 then c.duty1 else if n = 2 then c.duty2 else if n = 3 then c.duty3 else 0 := by
  match n with
  | 0 | 1 | 2 | 3 => rfl
  | n + 4 => simp [FanCfg.speed]

theorem selectFan_held {s : Part} (held : s.mode = .held) : selectFan s = s := if_pos held

theorem selectFan_unlatches {s : Part} (mode : s.mode ≠ .held) (state : s.fan.state = .latched)
    (ends : s.fanPosition = 0 ∨ s.ignition = .off) : selectFan s = s.setFan Fan.stopped :=
  (if_neg mode).trans (if_pos ⟨state, ends⟩)

theorem selectFan_sets {s : Part} (mode : s.mode ≠ .held)
    (stays : ¬ (s.fan.state = .latched ∧ (s.fanPosition = 0 ∨ s.ignition = .off))) :
    selectFan s = setTarget s.fanTarget s :=
  (if_neg mode).trans (if_neg stays)

/-- The conditions follow an accepted write (10: R168, R176). -/
theorem Written.makes_synced {P Q : Part → Prop} {w : Written} (h : Written.makes P w)
    (synced : ∀ u, P u → Q (syncConds u)) : Written.makes Q (w.map syncConds) := by
  intro t accepted
  cases w with
  | error st => cases accepted
  | ok u =>
    cases accepted
    exact synced u (h u rfl)

theorem writeFan_selects (bs : List Byte) (u : Part) : Written.makes
    (fun t => ∃ c, t = selectFan (u.setTables { u.tables with fan := c })) (writeFan bs u) := by
  unfold writeFan
  split
  · exact Written.makes_error _ _
  · exact withEntry_makes fun c => acceptIf_makes _ ⟨c, rfl⟩

/-- An accepted FAN write selects the target by the entry as written (R119). -/
theorem writeEntry_fan (bs : List Byte) (u : Part) : Written.makes
    (fun t => ∃ c, t = syncConds (selectFan (u.setTables { u.tables with fan := c }))) (writeEntry 7 0 bs u) := by
  refine Written.makes_synced (writeFan_selects bs u) ?_
  rintro _ ⟨c, rfl⟩
  exact ⟨c, rfl⟩

/-- Settles O50: a ramp step and a change of target from STOPPED or RUNNING come to `fanStepped`; the other rows of
Table 3 release through `FanHolds` or replace the waiting claim in its place. -/
theorem fanRampsByClaims : Obligations.FanRampsByClaims := by
  unfold Obligations.FanRampsByClaims
  intro need sized moved stepped
  refine ⟨fun s on state runs _ => ?_, fun bs u => writeEntry_fan bs u, ?_⟩
  · have busy : (fanStep s.part).fan.state.busy = true :=
      (fanStep_keepsOn s.part).busy ((busy_iff _).2 (.inr (.inl state)))
    have step : s.part.fanStepped s.part.fan.state s.part.fan.target (fanStep s.part) := fanStep_stepped s.part rfl
    rw [state] at step
    exact ⟨_, exec_rampStep on state runs, step.outputs (finish_fanBusy busy)⟩
  · intro u t f c x position permitted speed g first ended repriced blocked
    have switch : u.fanPosition = position := fanPosition_eq u
    refine ⟨selectFan_held, fun mode latched ends => selectFan_unlatches mode latched (by rw [switch]; exact ends),
      fun T runs rests mode stays => ?_⟩
    have target : u.fanTarget = T := by
      unfold Part.fanTarget
      by_cases used : permitted ∧ 0 < c.nominal
      · rw [if_pos ⟨(fanPermitted_iff u).2 used.1, used.2⟩, runs used, switch]
        exact speed_eq ..
      · rw [if_neg fun both => used ⟨(fanPermitted_iff u).1 both.1, both.2⟩, rests used]
    have used : 0 < T → 0 < c.nominal := fun driven => by
      by_contra unused
      exact Nat.ne_of_gt driven (rests fun both => unused both.2)
    have selected : t = setTarget T u := by
      rw [← target]
      exact selectFan_sets mode (by rw [switch]; exact stays)
    clear_value t
    subst selected
    refine ⟨fun same => if_pos same, fun new => ⟨fun state _ _ => setTarget_stopped new state, fun state zero => ?_,
      fun state driven waits step tight => ?_, fun state driven below => ?_, fun state above none => ?_,
      fun state above waits held => ?_, fun state above _ => setTarget_running new state above,
      setTarget_stallWait new, setTarget_latched new⟩⟩
    · subst zero
      obtain ⟨fan, grant, claim⟩ := setTarget_zero new state
      exact ⟨fan, grant, claim⟩
    · rw [setTarget_waiting new state driven]
      have size : u.firstClaim T = first T := firstClaim_amount (used driven) step driven
      rw [← size] at tight ⊢
      obtain ⟨claims, fan⟩ := reclaimFan_reprices waits tight
      exact ⟨claims, by rw [fan]⟩
    · rw [setTarget_below new state driven below]
      obtain ⟨fan, grant, claim⟩ := cutFan_holds T u
      exact ⟨grant, claim, fun lower => fan.trans (if_neg (Nat.ne_of_lt lower)),
        fun same => fan.trans (if_pos same)⟩
    · rw [setTarget_ramping new state above]
      obtain ⟨fan, grant, -⟩ := raiseFan_holds T none
      exact ⟨grant, fan⟩
    · intro N a short tight
      rw [setTarget_ramping new state above]
      obtain ⟨claims, fan⟩ := raiseFan_reprices waits held short rfl tight
      exact ⟨claims, by rw [fan]⟩

end Sys2Proof.Machine
end

section
/-! What the gauge unit does at a sender report and at a tick is a reaction (08: R137 to R145): it drives no gauge that
was not driven. -/

namespace Sys2Proof.Machine

/-- A slip of a gauge leaves its state (08: R140). -/
theorem Reaction.slipGauge (g : Fin 4) (k : SlipKind) (s : Part) : Reaction s (slipGauge g k s) :=
  (Reaction.setGauge s g ((s.gauge g).slipped k) fun _ driven => driven).trans (.setCond .gaugeSlip true _ rfl)

/-- What a slip makes of its gauge, and that it leaves the others (08: R140). -/
theorem slipGauge_gauges (g : Fin 4) (k : SlipKind) (s : Part) :
    (slipGauge g k s).gauges = (s.setGauge g ((s.gauge g).slipped k)).gauges := by
  obtain ⟨-, -, -, -, gauges⟩ := (FlagsOnly.setCond .gaugeSlip true (s.setGauge g ((s.gauge g).slipped k))).outputs
  exact gauges

theorem slipGauge_gauge (g : Fin 4) (k : SlipKind) (s : Part) :
    (slipGauge g k s).gauge g = (s.gauge g).slipped k := by
  unfold Part.gauge
  rw [slipGauge_gauges]
  exact setGauge_gauge ..

theorem slipGauge_ne {g k : Fin 4} (kind : SlipKind) (s : Part) (other : g ≠ k) :
    (slipGauge g kind s).gauge k = s.gauge k := by
  unfold Part.gauge
  rw [slipGauge_gauges]
  exact setGauge_ne s _ other

/-- A slip, followed by another figure of the store or the state of a driven gauge. -/
theorem Reaction.slipped (g : Fin 4) (k : SlipKind) (s : Part) (r : Gauge)
    (driven : r.state.driven = true → (s.gauge g).state.driven = true) :
    Reaction s ((Machine.slipGauge g k s).setGauge g r) :=
  (Reaction.slipGauge g k s).trans
    (.setGauge _ g r fun _ now => by rw [slipGauge_gauge]; exact driven now)

theorem Reaction.takeSample (g : Fin 4) (x : Sample) (s : Part) : Reaction s (takeSample g x s) := by
  refine .ite (.setGauge s g _ fun _ driven => driven) (.slipped g .drop s _ fun driven => ?_)
  rw [slipGauge_gauge] at driven
  exact driven

theorem Reaction.reportGauge (source : Nat) (payload : List Byte) (s : Part) (g : Fin 4) :
    Reaction s (reportGauge source payload s g) := by
  unfold Machine.reportGauge
  refine .ite ?_ (.refl s)
  split
  · exact .takeSample g _ s
  · exact .refl s

/-- A SENDER_REPORT frame at the gauge unit (08: R137). -/
theorem Reaction.reportGauges (source : Nat) (payload : List Byte) (s : Part) :
    Reaction s (reportGauges source payload s) :=
  .ite (.refl s) (.foldl (.reportGauge source payload) _ s)

/-- A driven gauge takes its sample for the tick (08: R139). -/
theorem Reaction.tickSample (g : Fin 4) (s : Part) (driven : (s.gauge g).state.driven = true) :
    Reaction s (tickSample g s) :=
  .ite (.ite (.slipped g .repeat_ s _ fun _ => driven) (.redrive s g _ driven))
    (.ite (.redrive s g _ driven) (.refl s))

theorem Reaction.useSample (g : Fin 4) (s : Part) : Reaction s (useSample g s) := by
  have moved : ∀ c goal, Reaction s (s.setGauge g ((s.gauge g).toward c goal)) := fun _ _ =>
    .setGauge s g _ fun _ driven => driven
  unfold Machine.useSample
  dsimp only
  split
  · exact .refl s
  · exact moved ..
  · split
    · exact moved ..
    · exact .refl s

/-- The tick at one gauge, by its state (08: R141). -/
theorem Reaction.actGauge (g : Fin 4) (s : Part) : Reaction s (actGauge g s) := by
  unfold Machine.actGauge
  dsimp only
  split
  iterate 3 exact .refl s
  · exact .setGauge s g _ fun _ driven => driven
  iterate 2
    rename_i state
    split
    · exact (Reaction.tickSample g s (by rw [state]; rfl)).trans (.useSample g _)
    · exact .setGauge s g _ fun _ driven => driven

theorem Reaction.tickGauge (s : Part) (g : Fin 4) : Reaction s (tickGauge s g) :=
  (Reaction.setGauge s g ((s.gauge g).takeFigures (s.gaugeCfg g)) fun _ driven => driven).trans (.actGauge g _)

theorem Reaction.driveOutput (s : Part) (g : Fin 4) : Reaction s (driveOutput s g) :=
  .ite (.setGauge s g _ fun _ driven => driven) (.refl s)

/-- A gauge tick (08: R141). -/
theorem Reaction.tickGauges (s : Part) : Reaction s (tickGauges s) :=
  ((Reaction.foldl .tickGauge _ s).trans (.foldl .driveOutput _ _)).trans (.foldl .endRamp _ _)

/-- The last tick of a park ramp (08: R145). -/
theorem Reaction.lastRampTick (g : Fin 4) (s : Part) : Reaction s (lastRampTick g s) :=
  ((Reaction.tickGauge s g).trans (.driveOutput _ g)).trans (.endRamp _ g)

end Sys2Proof.Machine
end

section
/-! The laws of the gauges and of the reference (08: R136; 09: R154) across the link, the management unit and the power
manager: gauges and power manager are touched by the blocks' reactions, by HOLD and RELEASE, and by the changes of mode
alone. -/

namespace Sys2Proof.Machine

/-! ### The laws -/

/-- No gauge is driven while the settled flag is clear, and the reference follows the mode, as both did before. -/
structure KeepsGauges (s t : Part) : Prop where
  gauges : s.gaugesOk → t.gaugesOk
  reference : s.referenceOk → t.referenceOk

theorem KeepsGauges.refl (s : Part) : KeepsGauges s s := ⟨id, id⟩

theorem KeepsGauges.trans {s t u : Part} (h : KeepsGauges s t) (k : KeepsGauges t u) : KeepsGauges s u :=
  ⟨k.gauges ∘ h.gauges, k.reference ∘ h.reference⟩

theorem KeepsGauges.foldl {α : Type} {f : Part → α → Part} (hf : ∀ s x, KeepsGauges s (f s x)) (xs : List α)
    (s : Part) : KeepsGauges s (xs.foldl f s) := by
  induction xs generalizing s with
  | nil => exact .refl s
  | cons x xs ih => exact (hf s x).trans (ih _)

theorem KeepsGauges.ite {s a b : Part} {c : Prop} [Decidable c] (ha : KeepsGauges s a) (hb : KeepsGauges s b) :
    KeepsGauges s (if c then a else b) := by
  split
  · exact ha
  · exact hb

/-! ### Single updates -/

theorem KeepsGauges.of_reaction {s t : Part} (h : Reaction s t) : KeepsGauges s t := ⟨h.gauges, h.reference⟩

/-- The laws speak of the gauges and of four fields of the power manager. -/
theorem KeepsGauges.of_power {s t : Part} (gauges : t.gauges = s.gauges) (stage : t.power.stage = s.power.stage)
    (settled : t.power.settled = s.power.settled) (reference : t.power.reference = s.power.reference)
    (mode : t.power.mode = s.power.mode) : KeepsGauges s t := by
  refine ⟨?_, ?_⟩
  · unfold Part.gaugesOk Part.on Part.gauge
    rw [gauges, stage, settled]
    exact id
  · unfold Part.referenceOk Part.on Part.mode
    rw [stage, reference, mode]
    exact id

/-- An update apart from the gauges and the power manager. -/
theorem KeepsGauges.of_eq {s t : Part} (gauges : t.gauges = s.gauges) (power : t.power = s.power) :
    KeepsGauges s t :=
  .of_power gauges (by rw [power]) (by rw [power]) (by rw [power]) (by rw [power])

/-- A new mode that wants the reference as it stands (09: R154). -/
theorem KeepsGauges.setMode (s : Part) (p : Power) (stage : p.stage = s.power.stage)
    (settled : p.settled = s.power.settled) (reference : p.reference = s.power.reference)
    (mode : p.mode.referenceOn = s.mode.referenceOn) : KeepsGauges s (s.setPower p) := by
  refine ⟨?_, ?_⟩
  · unfold Part.gaugesOk Part.on
    rw [setPower_power, stage, settled]
    exact id
  · unfold Part.referenceOk Part.on
    rw [setPower_power, stage, reference]
    exact fun ok on => (ok on).trans mode.symm

/-- A part that does not run asks its reference nothing. -/
theorem referenceOk_off {s : Part} (off : s.on = false) : s.referenceOk :=
  fun on => Bool.noConfusion (off.symm.trans on)

/-- A part with undriven gauges that does not run and is not settled obeys both laws. -/
theorem KeepsGauges.of_off {s t : Part} (off : t.on = false) (settled : t.power.settled = false)
    (undriven : ∀ g, (t.gauge g).state.driven = false) : KeepsGauges s t :=
  ⟨fun _ => ⟨fun _ => settled, fun _ => undriven⟩, fun _ => referenceOk_off off⟩

theorem KeepsGauges.setPort (s : Part) (p : Port) (r : PortRec) : KeepsGauges s (s.setPort p r) := .of_eq rfl rfl

theorem KeepsGauges.setRx (s : Part) (p : Port) (x : Rx) : KeepsGauges s (s.setRx p x) := .setPort ..

theorem KeepsGauges.setTx (s : Part) (p : Port) (x : TxState) : KeepsGauges s (s.setTx p x) := .setPort ..

theorem KeepsGauges.count (s : Part) (p : Port) (f : Counters → Counters) : KeepsGauges s (s.count p f) := .setPort ..

theorem KeepsGauges.setRelay (s : Part) (r : Relay) : KeepsGauges s { s with relay := r } := .of_eq rfl rfl

theorem KeepsGauges.setMgmt (s : Part) (m : Mgmt) : KeepsGauges s { s with mgmt := m } := .of_eq rfl rfl

theorem KeepsGauges.setTables (s : Part) (t : Tables) : KeepsGauges s (s.setTables t) := .setMgmt ..

theorem KeepsGauges.setInputs (s : Part) (v : Vector Input 32) : KeepsGauges s (s.setInputs v) := .of_eq rfl rfl

theorem KeepsGauges.of_flags {s t : Part} (h : FlagsOnly s t) : KeepsGauges s t := by
  obtain ⟨-, -, -, -, gauges⟩ := h.outputs
  exact .of_eq gauges h.power

theorem KeepsGauges.setCond (c : Cond) (b : Bool) (s : Part) : KeepsGauges s (setCond c b s) :=
  .of_flags (.setCond c b s)

theorem KeepsGauges.syncConds (s : Part) : KeepsGauges s (syncConds s) := .of_flags (.syncConds s)

theorem KeepsGauges.queueOwn (e : OwnEntry) (s : Part) (p : Port) : KeepsGauges s (queueOwn e s p) :=
  .of_flags (.queueOwn e s p)

theorem KeepsGauges.answerPlain (q : Request) (st : Status) (s : Part) : KeepsGauges s (answerPlain q st s) :=
  .of_reaction (.answerRequest ..)

theorem KeepsGauges.handMode (was : Mode) (s : Part) : KeepsGauges s (handMode was s) := .of_reaction (.handMode was s)

theorem KeepsGauges.finish (s : Part) : KeepsGauges s (finish s) := .of_reaction (.finish s)

/-! ### Ports -/

theorem KeepsGauges.followRoom (s : Part) : KeepsGauges s (followRoom s) := .ite (.setCond ..) (.refl s)

theorem KeepsGauges.followLink (s : Part) : KeepsGauges s (followLink s) := by
  obtain ⟨t, reaction, told⟩ := followLink_reaction s
  rw [told]
  exact ((KeepsGauges.setInputs ..).trans (.of_reaction reaction)).trans (.followRoom t)

theorem KeepsGauges.abortTx (p : Port) (s : Part) : KeepsGauges s (abortTx p s) := by
  unfold Machine.abortTx
  split
  · exact .ite ((KeepsGauges.setTx ..).trans (.setRx ..)) (.setTx ..)
  all_goals exact .refl s

theorem KeepsGauges.placePort (p : Port) (r : PortRec) (s : Part) : KeepsGauges s (placePort p r s) :=
  .ite ((KeepsGauges.setPort s p r).trans (.abortTx p _)) (.setPort s p r)

theorem KeepsGauges.writePort (p : Port) (r : PortRec) (s : Part) : KeepsGauges s (writePort p r s) :=
  (KeepsGauges.placePort p r s).trans (.of_flags (writePort_reaction p r s).1)

theorem KeepsGauges.takeReframe (p : Port) (s : Part) : KeepsGauges s (takeReframe p s) :=
  .ite ((KeepsGauges.writePort ..).trans (.followLink _)) (.refl s)

theorem KeepsGauges.requestReframe (p : Port) (s : Part) : KeepsGauges s (requestReframe p s) := by
  have ask : KeepsGauges s (s.setPort p { s.port p with reframe := true }) := .setPort ..
  unfold Machine.requestReframe
  dsimp only
  split
  iterate 2 exact ask.trans (.takeReframe p _)
  all_goals exact ask

/-! ### Frames that end -/

theorem KeepsGauges.onCut (p : Port) (f : TxFrame → TxFrame) (s : Part) : KeepsGauges s (onCut p f s) := by
  unfold Machine.onCut
  split
  · exact .setTx ..
  all_goals exact .refl s

theorem KeepsGauges.spoilRelay (p : Port) (x : Rx) (s : Part) : KeepsGauges s (spoilRelay p x s) :=
  .ite (.onCut p _ s) (.refl s)

theorem KeepsGauges.dropFragment (p : Port) (s : Part) : KeepsGauges s (dropFragment p s) :=
  (KeepsGauges.setRx ..).trans (.count ..)

theorem KeepsGauges.dropAborted (p : Port) (s : Part) : KeepsGauges s (dropAborted p s) :=
  ((KeepsGauges.setRx ..).trans (.count ..)).trans (.spoilRelay p _ _)

theorem KeepsGauges.dropFrame (p : Port) (s : Part) : KeepsGauges s (dropFrame p s) := by
  unfold Machine.dropFrame
  split
  iterate 2 exact .setRx ..
  · exact .dropFragment p s
  · exact .dropAborted p s

theorem KeepsGauges.endBad (p : Port) (phase : RxPhase) (alternate : Bool) (s : Part) :
    KeepsGauges s (endBad p phase alternate s) := by
  have counted : KeepsGauges s (countBad p phase s) := (KeepsGauges.setRx ..).trans (.count ..)
  rw [endBad_eq]
  exact (((counted.trans (.writePort ..)).trans (.spoilRelay ..)).trans (.followLink _)).trans (.takeReframe p _)

theorem KeepsGauges.setNodes (s : Part) (ns : List NodeEntry) : KeepsGauges s (s.setNodes ns) := .setRelay ..

theorem KeepsGauges.learn (source kind : Nat) (p : Port) (s : Part) : KeepsGauges s (learn source kind p s) := by
  unfold Machine.learn
  split
  · exact .setRelay ..
  · split
    · exact .setNodes ..
    · exact .ite (.setNodes ..) (.setCond ..)

theorem KeepsGauges.settleCopies (p : Port) (x : Rx) (s : Part) : KeepsGauges s (settleCopies p x s) := by
  have take : KeepsGauges s (settleTake p x s) := by
    unfold settleTake
    split <;> exact .of_eq rfl rfl
  have relay : ∀ t, KeepsGauges t (settleRelay p x t) := fun t => by
    unfold settleRelay
    split
    · exact .refl t
    · exact .setRelay ..
    · exact .onCut ..
  exact take.trans (relay _)

theorem KeepsGauges.endGood (p : Port) (s : Part) : KeepsGauges s (endGood p s) := by
  have written : KeepsGauges s (writeGood p s) := (KeepsGauges.setRx ..).trans (.writePort ..)
  rw [endGood_eq]
  exact (((written.trans (.settleCopies ..)).trans (.learn ..)).trans (.followLink _)).trans (.takeReframe p _)

/-! ### Symbols -/

theorem KeepsGauges.hear (p : Port) (s : Part) : KeepsGauges s (hear p s) := (KeepsGauges.setPort ..).trans (.setTx ..)

theorem KeepsGauges.onStart (p : Port) (s : Part) : KeepsGauges s (onStart p s) :=
  ((KeepsGauges.dropFrame p s).trans (.takeReframe p _)).trans (.setRx ..)

theorem KeepsGauges.headerTime (p : Port) (s : Part) : KeepsGauges s (headerTime p s) :=
  .ite ((KeepsGauges.setRx ..).trans (.setTx ..)) (.ite ((KeepsGauges.setRx ..).trans (.count ..)) (.setRx ..))

theorem KeepsGauges.takeNibble (p : Port) (n : Nibble) (s : Part) : KeepsGauges s (takeNibble p n s) := by
  cases h : (s.port p).rx.half with
  | none =>
    rw [takeNibble_first n h]
    exact .setRx ..
  | some m =>
    rw [takeNibble_second n h]
    have add : KeepsGauges s (addByte p (m ++ n) s) := .setRx ..
    exact .ite (add.trans (.ite (.onCut ..) (.refl _))) (.ite (add.trans (.headerTime p _)) add)

theorem KeepsGauges.onData (p : Port) (n : Nibble) (s : Part) : KeepsGauges s (onData p n s) := by
  rcases onData_cases p n s with e | e | e <;> rw [e]
  · exact .refl s
  · exact .takeNibble p n s
  · exact .endBad ..

theorem KeepsGauges.breakFrame (p : Port) (isEnd : Bool) (s : Part) : KeepsGauges s (breakFrame p isEnd s) := by
  unfold Machine.breakFrame
  split
  · exact .refl s
  · exact .ite (.setRx ..) (.refl s)
  · exact (KeepsGauges.dropFragment p s).trans (.takeReframe p _)
  · exact (KeepsGauges.dropAborted p s).trans (.takeReframe p _)

theorem KeepsGauges.onBreak (p : Port) (s : Part) : KeepsGauges s (onBreak p s) := by
  rw [onBreak_eq]
  exact .breakFrame p false s

theorem KeepsGauges.onEnd (p : Port) (s : Part) : KeepsGauges s (onEnd p s) := by
  by_cases body : (s.port p).rx.phase = .body
  · rw [onEnd_body body]
    exact .ite (.endGood p s) (.endBad ..)
  · rw [onEnd_break body]
    exact .breakFrame p true s

/-- Line activity takes QUIET to DORMANT, where the reference stays off (09: R154, R161). -/
theorem KeepsGauges.wakeByLine (s : Part) (asleep : s.mode = .quiet) : KeepsGauges s (wakeByLine s) := by
  have woken : KeepsGauges s { s with ports := ⟨s.ports.front.woken, s.ports.rear.woken⟩ } := .of_eq rfl rfl
  have moded := KeepsGauges.setMode { s with ports := ⟨s.ports.front.woken, s.ports.rear.woken⟩ }
    { s.power with mode := .dormant } rfl rfl rfl (congrArg Mode.referenceOn asleep).symm
  exact (woken.trans moded).trans (.handMode ..)

/-! ### Replies on their way, a port that goes quiet -/

theorem KeepsGauges.setOwnQ (s : Part) (p : Port) (q : List OwnEntry) : KeepsGauges s (s.setOwnQ p q) := .setRelay ..

theorem KeepsGauges.handHeldFrom (rs : List Reply) (s : Part) : KeepsGauges s (handHeldFrom rs s) := by
  induction rs generalizing s with
  | nil => exact .setMgmt ..
  | cons r rs ih => exact .ite (.setMgmt ..) ((KeepsGauges.queueOwn _ s _).trans (ih _))

theorem KeepsGauges.onQuiet (p : Port) (s : Part) : KeepsGauges s (onQuiet p s) := by
  have discard : ∀ t, KeepsGauges t (discardOwn p t) := fun t =>
    .ite ((KeepsGauges.setOwnQ ..).trans (.handHeldFrom ..)) (.setOwnQ ..)
  have silent : KeepsGauges s (silencePort p s) :=
    ((KeepsGauges.dropFrame p s).trans (.placePort ..)).trans (discard _)
  rw [onQuiet_eq]
  exact ((silent.trans (.syncConds _)).trans (.takeReframe p _)).trans (.followLink _)

/-! ### Transmitters and relay queues -/

theorem KeepsGauges.startOwn (p : Port) (e : OwnEntry) (rest : List OwnEntry) (s : Part) :
    KeepsGauges s (startOwn p e rest s) := by
  have sent : ∀ f, KeepsGauges s ((s.setOwnQ p rest).setTx p f) := fun f => (KeepsGauges.setOwnQ ..).trans (.setTx ..)
  exact .ite ((sent _).trans (.handHeldFrom ..)) (sent _)

theorem KeepsGauges.chooseFrame (p : Port) (s : Part) : KeepsGauges s (chooseFrame p s) := by
  unfold Machine.chooseFrame
  split
  · exact .startOwn ..
  · split
    · exact .of_eq rfl rfl
    · split
      · exact .startOwn ..
      · exact .setTx ..

theorem KeepsGauges.finishFrame (p : Port) (f : TxFrame) (s : Part) : KeepsGauges s (finishFrame p f s) := by
  have ended : ∀ sent, KeepsGauges s (endTx p sent s) := fun sent => .setPort ..
  have drop : ∀ t, KeepsGauges t (dropSent f t) := fun t => by
    unfold dropSent
    split
    · split
      iterate 2 exact .count ..
      all_goals exact .refl t
    · exact .refl t
  exact .ite ((ended _).trans (drop _)) (.ite (.ite ((ended _).trans (.setMgmt ..)) (ended _)) (.refl s))

theorem KeepsGauges.ageOut (p : Port) (s : Part) : KeepsGauges s (ageOut p s) := by
  unfold Machine.ageOut
  split
  · exact .refl s
  · exact ((KeepsGauges.setRelay ..).trans (.count ..)).trans (.setCond ..)

/-! ### The node table -/

theorem KeepsGauges.takePin (s : Part) (c : PinCfg) : KeepsGauges s (takePin s c) := by
  unfold Machine.takePin
  split
  · exact .refl s
  · split <;> exact .setNodes ..

theorem KeepsGauges.applyPins (s : Part) : KeepsGauges s (applyPins s) :=
  (KeepsGauges.setNodes ..).trans (.foldl .takePin _ _)

theorem KeepsGauges.rewritePin (old new : PinCfg) (s : Part) : KeepsGauges s (rewritePin old new s) :=
  KeepsGauges.trans (.ite (.refl s) (.setNodes ..)) (.takePin _ new)

theorem KeepsGauges.renumber (old : Nat) (s : Part) : KeepsGauges s (renumber old s) := by
  have dropped : KeepsGauges s { s with
      relay := { s.relay with nodes := dropNode s.mgmt.node s.relay.nodes, ownTimer := none } } := .setRelay ..
  exact dropped.trans (.foldl .takePin _ _)

end Sys2Proof.Machine
end

section
/-! The laws of the gauges and of the reference across the management unit and the power manager (09, 10). -/

namespace Sys2Proof.Machine

/-! ### Writes of table entries (10: R168) -/

section
variable (bs : List Byte) (s : Part)

theorem KeepsGauges.dropOwed : KeepsGauges s (dropOwed s) := .ite (.setMgmt ..) (.refl s)

theorem writeLink_gauges : Written.makes (KeepsGauges s) (writeLink bs s) := by
  have lock : ∀ (p : Port) (l : CheckLock) (t : Part), KeepsGauges t (writeLock p l t) := fun p l t =>
    .ite (.refl t) ((KeepsGauges.setPort ..).trans (.requestReframe p _))
  exact withEntry_makes fun _ => acceptIf_makes _
    ((((KeepsGauges.setTables s _).trans (.dropOwed _)).trans (lock .front _ _)).trans (lock .rear _ _))

theorem writePin_gauges (i : Fin 8) : Written.makes (KeepsGauges s) (writePin i bs s) :=
  withEntry_makes fun _ => acceptIf_makes _
    (((KeepsGauges.setTables s _).trans (.rewritePin _ _ _)).trans (.followLink _))

theorem writeMap_gauges (i : Fin 32) : Written.makes (KeepsGauges s) (writeMap i bs s) := by
  have map : ∀ (old new : MapCfg) (t : Part), KeepsGauges t (remap old new t) := fun old new t => by
    have freed : ∀ c : Prop, [Decidable c] → KeepsGauges t (if c then t.setInput old.input Input.cleared else t) :=
      fun c _ => .ite (.setInputs ..) (.refl t)
    exact .ite (freed _) (.ite ((freed _).trans (.setInputs ..)) ((freed _).trans (.setInputs ..)))
  exact withEntry_makes fun _ => acceptIf_makes _
    (((KeepsGauges.setTables s _).trans (map _ _ _)).trans (.of_reaction (.deliverNotice s _)))

theorem writeChan_gauges (ch : Fin 25) : Written.makes (KeepsGauges s) (writeChan ch bs s) := by
  have rebuilt := fun t => (KeepsGauges.setTables s t).trans (.of_reaction (.rebuildRecords _))
  have apply : ∀ c, KeepsGauges s (applyChan ch c s) := fun c =>
    .ite ((rebuilt _).trans (.of_reaction (.claimChan ch _))) (rebuilt _)
  unfold writeChan
  split
  · split
    · exact Written.makes_error _ _
    · exact withEntry_makes fun _ => acceptIf_makes _ (apply _)
  · exact Written.makes_error _ _

theorem writeFan_gauges : Written.makes (KeepsGauges s) (writeFan bs s) := by
  unfold writeFan
  split
  · exact Written.makes_error _ _
  · exact withEntry_makes fun _ => acceptIf_makes _
      ((KeepsGauges.setTables s _).trans (.of_reaction (.selectFan _)))

/-- A GAUGES write leaves the state of its gauge to the start test (08: R131). -/
theorem writeGauge_gauges (g : Fin 4) : Written.makes (KeepsGauges s) (writeGauge g bs s) := by
  have applied : ∀ t old c, KeepsGauges s
      (startTest ((s.setTables t).setGauge g ((s.gauge g).rewritten old c)) g) := fun t old c =>
    ((KeepsGauges.setTables s t).trans
      (.of_reaction (.setGauge _ g ((s.gauge g).rewritten old c) fun _ driven => driven))).trans
      (.of_reaction (.startTest _ g))
  unfold writeGauge
  dsimp only
  split
  · exact Written.makes_error _ _
  · exact withEntry_makes fun _ => acceptIf_makes _ (applied ..)

/-- The charging state is none of what the laws speak of (05: R81). -/
theorem KeepsGauges.followCharging : KeepsGauges s (followCharging s) := .of_power rfl rfl rfl rfl rfl

theorem writePower_gauges : Written.makes (KeepsGauges s) (writePower bs s) :=
  withEntry_makes fun _ => acceptIf_makes _
    (((KeepsGauges.setTables s _).trans (.followCharging _)).trans (.of_reaction (.selectLimit _)))

theorem writeRule_gauges (i : Fin 32) : Written.makes (KeepsGauges s) (writeRule i bs s) :=
  withEntry_makes fun _ => acceptIf_makes _ ((KeepsGauges.setTables s _).trans (.of_reaction (.evaluate _)))

theorem writeSetup_gauges : Written.makes (KeepsGauges s) (writeSetup bs s) := by
  refine withEntry_makes fun d t accepted => ?_
  cases accepted
  exact (KeepsGauges.setTables s { s.tables with dimmer := d }).trans (.of_reaction (.evaluate _))

/-- One entry written, whatever its table. -/
theorem writeEntry_gauges (table i : Nat) : Written.makes (KeepsGauges s) (writeEntry table i bs s) := by
  have sync : ∀ w : Written, Written.makes (KeepsGauges s) w → Written.makes (KeepsGauges s) (w.map syncConds) :=
    fun w h t accepted => by
      cases w with
      | error st => cases accepted
      | ok u =>
        cases accepted
        exact (h u rfl).trans (.syncConds u)
  unfold writeEntry
  dsimp only
  refine sync _ ?_
  split
  · exact writeLink_gauges bs s
  · exact withIndex_makes (writePin_gauges bs s)
  · exact withIndex_makes fun _ => acceptIf_makes _ (.setTables ..)
  · exact withIndex_makes (writeMap_gauges bs s)
  · exact withIndex_makes (writeChan_gauges bs s)
  · exact withIndex_makes (writeRule_gauges bs s)
  · exact writeFan_gauges bs s
  · exact withIndex_makes (writeGauge_gauges bs s)
  · exact withIndex_makes fun _ => acceptIf_makes _ (.setTables ..)
  · exact writePower_gauges bs s
  · exact writeSetup_gauges bs s
  · exact Written.makes_error _ _

end

theorem KeepsGauges.writeEntries (table size n i : Nat) (bs : List Byte) (s : Part) :
    KeepsGauges s (writeEntries table size n i bs s).1 := by
  induction n generalizing i bs s with
  | zero => exact .refl s
  | succ n ih =>
    unfold Machine.writeEntries
    split
    · exact .refl s
    · rename_i t accepted
      exact (writeEntry_gauges _ s table i t accepted).trans (ih ..)

/-! ### The ops (10: R167 to R177) -/

theorem KeepsGauges.setWindow (table index : Nat) (s : Part) : KeepsGauges s (setWindow table index s) := .setMgmt ..

theorem KeepsGauges.answerRequest (q : Request) (a : Answer) (s : Part) : KeepsGauges s (answerRequest q a s) :=
  .of_reaction (.answerRequest ..)

theorem KeepsGauges.doRead (q : Request) (s : Part) : KeepsGauges s (doRead q s) := by
  unfold Machine.doRead
  split <;> exact .answerRequest ..

theorem KeepsGauges.doSelect (q : Request) (s : Part) : KeepsGauges s (doSelect q s) := by
  unfold Machine.doSelect
  split
  · exact .answerPlain ..
  · exact (KeepsGauges.setWindow ..).trans (.answerPlain ..)

theorem KeepsGauges.doReadNext (q : Request) (s : Part) : KeepsGauges s (doReadNext q s) := by
  unfold Machine.doReadNext
  dsimp only
  split
  · exact .answerPlain ..
  · exact (KeepsGauges.setWindow ..).trans (.answerRequest ..)

theorem KeepsGauges.doWriteAt (table index : Nat) (moves : Bool) (q : Request) (s : Part) :
    KeepsGauges s (doWriteAt table index moves q s) := by
  unfold Machine.doWriteAt
  split
  · exact .answerPlain ..
  · dsimp only
    have written := KeepsGauges.writeEntries table (entrySize table) (q.data.length / entrySize table) index q.data s
    exact KeepsGauges.trans (.ite (written.trans (.setWindow ..)) written) (.answerRequest ..)

/-- HOLD turns the reference on with its mode and parks every gauge (08: R148; 09: R162). -/
theorem KeepsGauges.takeHold (s : Part) : KeepsGauges s (takeHold s) := by
  have lit := (Reaction.answerSleep .refused s).trans (.lightTxs _)
  have held : ∀ g, ((Machine.takeHold s).gauge g).state = .parked := fun g => congrArg Gauge.state (tab_get _ g)
  refine ⟨fun ok => ⟨fun off => ?_, fun _ g => by rw [held]; rfl⟩, fun _ _ => rfl⟩
  obtain ⟨clear, -⟩ := lit.gauges ok
  exact clear off

theorem KeepsGauges.holdNow (q : Request) (s : Part) : KeepsGauges s (holdNow q s) :=
  KeepsGauges.trans (.ite (.refl s) (.takeHold s)) (.answerPlain ..)

theorem KeepsGauges.doHold (q : Request) (s : Part) : KeepsGauges s (doHold q s) := .ite (.setMgmt ..) (.holdNow q s)

theorem takePin_power (s : Part) (c : PinCfg) : (takePin s c).power = s.power := by
  unfold takePin
  split
  · rfl
  · split <;> rfl

theorem applyPins_power (s : Part) : (applyPins s).power = s.power := by
  have pinned : ∀ (cs : List PinCfg) (t : Part), (cs.foldl takePin t).power = t.power := fun cs => by
    induction cs with
    | nil => exact fun _ => rfl
    | cons c cs ih => exact fun t => (ih _).trans (takePin_power t c)
  exact pinned ..

/-- The part at RELEASE with tables, pins and inputs loaded, before the blocks restart (10: R171). -/
def Part.reloaded (s : Part) : Part :=
  clearInputs (applyPins (dropOwed (setWindow 0 0 (dropCommands (reloadLocks
    (s.setTables (loadedTables s.storedTables s.mgmt.node)))))))

/-- The part at RELEASE with its blocks restarted, before it looks at the lamp nodes (10: R171). -/
def Part.restarted (s : Part) : Part := gaugesFresh (fanStopped (forceOff (rebuildRecords s.reloaded)))

theorem releaseBlocks_eq (s : Part) : releaseBlocks s = followRoom (followNodes s.restarted) := rfl

theorem dropOwed_power (s : Part) : (dropOwed s).power = s.power := by
  unfold dropOwed
  split <;> rfl

theorem restarted_power (s : Part) : s.restarted.power = s.power :=
  calc s.restarted.power
    _ = s.reloaded.power := rfl
    _ = _ := applyPins_power _
    _ = s.power := dropOwed_power _

theorem followRoom_flags (s : Part) : FlagsOnly s (followRoom s) := .ite (.setCond ..) (.refl s)

/-- RELEASE restarts the blocks before it chooses the mode (10: R171). -/
theorem releaseBlocks_power (s : Part) : (releaseBlocks s).power = s.power := by
  rw [releaseBlocks_eq, (followRoom_flags _).power, (Steady.followNodes _).power, restarted_power]

theorem KeepsGauges.reloaded (s : Part) : KeepsGauges s s.reloaded := by
  have loaded : KeepsGauges s (Machine.setWindow 0 0
      (dropCommands (reloadLocks (s.setTables (loadedTables s.storedTables s.mgmt.node))))) := .of_eq rfl rfl
  exact ((loaded.trans (.dropOwed _)).trans (.applyPins _)).trans (.setInputs ..)

theorem KeepsGauges.releaseBlocks (s : Part) : KeepsGauges s (releaseBlocks s) := by
  have restarted : Reaction s.reloaded s.restarted :=
    (((Reaction.rebuildRecords _).trans (.forceOff _)).trans (.fanStopped _)).trans (.gaugesFresh _)
  rw [releaseBlocks_eq]
  exact ((KeepsGauges.reloaded s).trans (.of_reaction (restarted.trans (.followNodes _)))).trans (.followRoom _)

theorem followCharging_mode (s : Part) : (followCharging s).mode = s.mode := rfl

/-- RELEASE goes from HELD to RUNNING or STANDING, all three with the reference on (09: R154, R162). -/
theorem KeepsGauges.takeRelease (s : Part) (held : s.mode = .held) : KeepsGauges s (takeRelease s) := by
  have charged : KeepsGauges s (Machine.followCharging (Machine.releaseBlocks s)) :=
    (KeepsGauges.releaseBlocks s).trans (.followCharging _)
  have mode : (Machine.followCharging (Machine.releaseBlocks s)).mode = .held := by
    rw [followCharging_mode]
    unfold Part.mode
    rw [releaseBlocks_power]
    exact held
  unfold Machine.takeRelease
  dsimp only
  generalize Machine.followCharging (Machine.releaseBlocks s) = t at charged mode ⊢
  have moded : KeepsGauges t (t.setPower { t.power with mode := if t.ignition = .off then .standing else .running }) :=
    .setMode t _ rfl rfl rfl (by rw [mode]; split <;> rfl)
  have commanded : ∀ ns : List Nat, ∀ u : Part, KeepsGauges u (Machine.handMode .held (ns.foldl commandNode u)) :=
    fun ns u => .of_reaction ((Reaction.foldl (fun v n => .commandNode v n) ns u).trans (.handMode ..))
  exact (charged.trans moded).trans (commanded ..)

theorem KeepsGauges.doRelease (q : Request) (s : Part) : KeepsGauges s (doRelease q s) := by
  unfold Machine.doRelease
  split
  · exact .answerPlain ..
  · rename_i held
    exact .ite (.answerPlain ..) ((KeepsGauges.takeRelease s (not_not.1 held)).trans (.answerPlain ..))

theorem KeepsGauges.doCommit (q : Request) (s : Part) : KeepsGauges s (doCommit q s) :=
  .ite (.answerPlain ..) (.setMgmt ..)

theorem KeepsGauges.completeCommit (q : Request) (equal : Bool) (s : Part) :
    KeepsGauges s (completeCommit q equal s) := by
  have deferred : ∀ t, KeepsGauges t (takeDeferred t) := fun t => by
    unfold takeDeferred
    split
    · exact .refl t
    · exact (KeepsGauges.setMgmt t { t.mgmt with slot := none }).trans (.holdNow ..)
  have ended : ∀ st, KeepsGauges s
      { s with mgmt := { s.mgmt with store := { s.mgmt.store with state := st }, commit := none } } := fun _ =>
    .setMgmt ..
  exact (((ended _).trans (.setCond ..)).trans (.answerPlain ..)).trans (deferred _)

theorem KeepsGauges.doSleep (q : Request) (s : Part) : KeepsGauges s (doSleep q s) :=
  .ite (.answerPlain ..) (.ite (.answerPlain ..) (.of_power rfl rfl rfl rfl rfl))

theorem KeepsGauges.doAssign (q : Request) (s : Part) : KeepsGauges s (doAssign q s) := by
  have numbered : ∀ n, KeepsGauges s { s with mgmt := { s.mgmt with node := n } } := fun _ => .setMgmt ..
  exact .ite (.answerPlain ..) (.ite (.answerPlain ..) (.ite (.answerPlain ..)
    ((((numbered _).trans (.renumber _ _)).trans (.followLink _)).trans (.answerPlain ..))))

theorem KeepsGauges.doReframe (q : Request) (s : Part) : KeepsGauges s (doReframe q s) := by
  unfold Machine.doReframe
  split
  iterate 2 exact (KeepsGauges.answerPlain ..).trans (.requestReframe ..)
  · exact .answerPlain ..

theorem KeepsGauges.doClear (q : Request) (s : Part) : KeepsGauges s (doClear q s) := by
  have flags : ∀ v w : BitVec 16, KeepsGauges s { s with mgmt := { s.mgmt with active := v, changed := w } } :=
    fun _ _ => .setMgmt ..
  exact (flags _ _).trans (.answerPlain ..)

theorem KeepsGauges.doClearCounters (q : Request) (s : Part) : KeepsGauges s (doClearCounters q s) := by
  have cleared : KeepsGauges s { s with
      ports := ⟨s.ports.front.uncounted, s.ports.rear.uncounted⟩, mgmt := { s.mgmt with dropped := 0 } } :=
    .of_eq rfl rfl
  exact cleared.trans (.answerPlain ..)

/-! ### Requests and the frames of the other consumers -/

theorem KeepsGauges.restartIdle (s : Part) : KeepsGauges s (restartIdle s) := .of_reaction (.restartIdle s)

theorem KeepsGauges.serve {permitted : Part → RxEntry → Bool} {lengthOk : Nat → Bool}
    {carry : Request → Part → Part} (h : ∀ q s, KeepsGauges s (carry q s)) (e : RxEntry) (s : Part) :
    KeepsGauges s (serve permitted lengthOk carry e s) :=
  KeepsGauges.trans (.ite (.setMgmt ..) (.ite (.answerPlain ..) (.ite (.answerPlain ..) (h _ s)))) (.restartIdle _)

theorem KeepsGauges.serveUnknown (e : RxEntry) (s : Part) : KeepsGauges s (serveUnknown e s) :=
  KeepsGauges.trans (.ite (.setMgmt ..) (.ite (.answerPlain ..) (.answerPlain ..))) (.restartIdle _)

theorem KeepsGauges.switchReport (a : Port) (source : Nat) (payload : List Byte) (s : Part) :
    KeepsGauges s (switchReport a source payload s) := by
  have taken : KeepsGauges s (takeReports source payload s) := .setInputs ..
  exact .ite (taken.trans (.of_reaction (.deliverNotice s _))) (.refl s)

theorem KeepsGauges.takeEntry (s : Part) : KeepsGauges s (takeEntry s) := by
  have popped : KeepsGauges s s.popped := .setRelay ..
  exact popped.trans (.of_flags (takeEntry_flags s).1)

theorem Reaction.sampleStep (lamps : Vector Nat 12) (fan : Nat) (s : Part) : Reaction s (sampleStep lamps fan s) :=
  (Reaction.foldl (fun t _ => .ite (.sampleLamp _ _ t) (.refl t)) _ s).trans (.sampleFan ..)

theorem Reaction.flashSampleStep (lamps : Vector Nat 12) (s : Part) : Reaction s (flashSampleStep lamps s) :=
  (Reaction.foldl (fun t _ => .ite (.sampleLamp _ _ t) (.refl t)) _ s).trans (.setChannels ..)

theorem Reaction.onPhaseEdge (s : Part) : Reaction s (onPhaseEdge s) := (Reaction.onEdge _ s).trans (.settleLights _)

theorem Reaction.offPhaseEdge (s : Part) : Reaction s (offPhaseEdge s) :=
  (Reaction.setFlasher s _).trans (.settleLights _)

/-! ### The power manager -/

/-- The settled flag is set in a running part, where no law asks it to be clear (09: R156). -/
theorem KeepsGauges.settleReference (s : Part) (on : s.on = true) : KeepsGauges s (settleReference s) := by
  have set : KeepsGauges s (s.setPower { s.power with settled := true, interval := .none }) :=
    ⟨fun _ => ⟨fun off => Bool.noConfusion (off.symm.trans on), nofun⟩, id⟩
  exact set.trans (.of_reaction (.gaugesSettled _))

theorem cancelDeferral_mode (s : Part) : (cancelDeferral s).mode = s.mode := by
  unfold cancelDeferral
  split
  · have answered := (Steady.answerSleep .refused (s.setPower { s.power with deferral := false })).power
    exact (congrArg Power.mode answered).trans rfl
  · rfl

/-- An ignition state followed: RUNNING and STANDING both have the reference on, and a wake turns it on (09: R154). -/
theorem KeepsGauges.followIgnition (s : Part) : KeepsGauges s (followIgnition s) := by
  unfold Machine.followIgnition
  split
  · rename_i running
    have standing : KeepsGauges s (s.setPower { s.power with mode := .standing }) :=
      .setMode s _ rfl rfl rfl (by rw [running]; rfl)
    exact .ite (standing.trans (.handMode ..)) (.handMode ..)
  · rename_i standing
    have running : KeepsGauges (cancelDeferral s)
        ((cancelDeferral s).setPower { (cancelDeferral s).power with mode := .running }) :=
      .setMode _ _ rfl rfl rfl (by rw [cancelDeferral_mode, standing]; rfl)
    exact .ite (.refl s) (((KeepsGauges.of_reaction (.cancelDeferral s)).trans running).trans (.handMode ..))
  iterate 2 exact .ite (.refl s) (.of_reaction (.wakeTo _ s rfl))
  · exact .refl s

theorem KeepsGauges.followSupply (s : Part) : KeepsGauges s (followSupply s) := by
  have low : KeepsGauges s (followLowSupply s) := .ite (.setCond ..) (.ite (.setCond ..) (.refl s))
  have charged := low.trans (.followCharging _)
  exact .ite charged (charged.trans (.of_reaction (.selectLimit _)))

/-- QUIET is entered from DORMANT, both with the reference off (09: R154, R161). -/
theorem KeepsGauges.enterQuiet (s : Part) (dormant : s.mode = .dormant) : KeepsGauges s (enterQuiet s) := by
  have dark : KeepsGauges s (forceOff { s with ports := ⟨s.ports.front.darkened, s.ports.rear.darkened⟩ }) :=
    .of_eq rfl rfl
  have moded : ∀ t : Part, t.mode = .dormant →
      KeepsGauges t (t.setPower { t.power with mode := .quiet, quiet := none }) := fun t mode =>
    .setMode t _ rfl rfl rfl (by rw [mode]; rfl)
  exact (dark.trans (moded _ dormant)).trans (.handMode ..)

end Sys2Proof.Machine
end

section
/-! Every step keeps the laws of the gauges and of the reference (08: R136; 09: R154). -/

namespace Sys2Proof.Machine

/-! ### Events -/

theorem eventIf_gauges {test : Bool} {f : Part → Part} {s : Part}
    (h : s.on = true → test = true → KeepsGauges s (f s)) : KeepsGauges s (eventIf test f s) := by
  unfold eventIf
  split
  · rename_i due
    exact (h due.1 due.2).trans (.finish _)
  · exact .refl s

theorem eventIf_reaction {test : Bool} {f : Part → Part} {s : Part} (h : Reaction s (f s)) :
    KeepsGauges s (eventIf test f s) := eventIf_gauges fun _ _ => .of_reaction h

theorem onSymbol_gauges {p : Port} {f : Part → Part} (s : Part) (h : ∀ t, KeepsGauges t (f t)) :
    KeepsGauges s (onSymbol p f s) := by
  unfold onSymbol
  split
  · exact .refl s
  · split
    · rename_i asleep
      exact (KeepsGauges.wakeByLine s asleep).trans (.finish _)
    · exact ((KeepsGauges.hear p s).trans (h _)).trans (.finish _)

theorem dispatchIf_gauges {test : RxEntry → Bool} {act : RxEntry → Part → Part} (s : Part)
    (h : ∀ e t, KeepsGauges t (act e t)) : KeepsGauges s (dispatchIf test act s) := by
  unfold dispatchIf
  split
  · exact .refl s
  · exact .ite (((KeepsGauges.takeEntry s).trans (h _ _)).trans (.finish _)) (.refl s)

theorem dispatchOp_gauges {op : Nat} {permitted : Part → RxEntry → Bool} {lengthOk : Nat → Bool}
    {carry : Request → Part → Part} (s : Part) (h : ∀ q t, KeepsGauges t (carry q t)) :
    KeepsGauges s (dispatchOp op permitted lengthOk carry s) :=
  dispatchIf_gauges s fun e t => .serve h e t

theorem transmitEnd_gauges (p : Port) (s : Part) : KeepsGauges s (transmitEnd p s) := by
  unfold transmitEnd
  split
  · exact eventIf_gauges fun _ _ => .finishFrame ..
  all_goals exact .refl s

theorem commitComplete_gauges (equal : Bool) (s : Part) : KeepsGauges s (commitComplete equal s) := by
  unfold commitComplete
  split
  · exact .refl s
  · exact eventIf_gauges fun _ _ => .completeCommit ..

theorem refreshExpiry_gauges (record : Fin 2) (s : Part) : KeepsGauges s (refreshExpiry record s) := by
  unfold refreshExpiry
  split
  · exact .refl s
  · exact eventIf_reaction (.ite (.commandNode ..) (.onLampNode ..))

/-! ### Parts that do not run -/

theorem nodeAgeStep_gauges (s : Part) : KeepsGauges s (nodeAgeStep s) := by
  have aged : KeepsGauges s (ageNodes s) := .setNodes ..
  exact .ite ((aged.trans (.followLink _)).trans (.finish _)) aged

theorem entryDue_allParked {s : Part} (due : s.entryDue = true) : s.allParked = true := by
  unfold Part.entryDue at due
  exact mayEnterDormant_allParked s (Bool.and_eq_true_iff.1 due).2

theorem KeepsGauges.setLine (s : Part) (l : IgnLine) (x : Line) :
    KeepsGauges s (s.setPower (s.power.setLine l x)) := by
  cases l <;> exact .of_power rfl rfl rfl rfl rfl

theorem debounceExpiry_gauges (l : IgnLine) (s : Part) : KeepsGauges s (debounceExpiry l s) := by
  have settled : KeepsGauges s (settleLine l s) := .setLine ..
  exact .ite (.refl s) (.ite settled (.ite (settled.trans (.finish _))
    ((settled.trans (.followIgnition _)).trans (.finish _))))

/-- A part in reset has every gauge PARKED and the settled flag clear (09: R153). -/
theorem KeepsGauges.powerOn {s t : Part} (off : t.on = false) (settled : t.power.settled = false)
    (gauges : t.gauges = tab fun g => Gauge.parkedAt (defaultGauge g)) : KeepsGauges s t := by
  refine .of_off off settled fun g => ?_
  unfold Part.gauge
  rw [gauges, tab_get]
  rfl

theorem supplyStep_gauges (v : Nat) (s : Part) : KeepsGauges s (supplyStep v s) := by
  have pushed : KeepsGauges s (pushSample v s) := .of_power rfl rfl rfl rfl rfl
  have browned : KeepsGauges s (brownOut (pushSample v s)) := .powerOn rfl rfl rfl
  have released : KeepsGauges s (releaseReset (pushSample v s)) := .powerOn rfl rfl rfl
  unfold supplyStep
  dsimp only
  split
  · exact .ite released pushed
  · exact .ite browned pushed
  · exact .ite browned ((pushed.trans (.followSupply _)).trans (.finish _))

theorem KeepsGauges.loadStore (s : Part) : KeepsGauges s (loadStore s) := by
  unfold Machine.loadStore
  split <;> exact .setMgmt ..

/-- The load stage leaves of the power manager all but the stage (09: R153). -/
theorem loadPart_power (s : Part) : (loadPart s).power = { s.power with stage := .released true } := by
  have loaded : (loadStore s).power = s.power := by unfold loadStore; split <;> rfl
  have pinned : ∀ ports, (applyPins { loadStore s with ports := ports }).power = s.power := fun _ =>
    (applyPins_power _).trans loaded
  exact congrArg (fun p : Power => { p with stage := .released true }) (pinned _)

/-- The load stage finds a part that does not run, so an unsettled one, and parks its gauges (10: R179). -/
theorem nvLoadStep_gauges (s : Part) : KeepsGauges s (nvLoadStep s) := by
  unfold nvLoadStep
  split
  · rename_i due
    have off : s.on = false := by unfold Part.on; rw [due]; rfl
    have parked : ∀ g, ((loadPart s).gauge g).state = .parked := fun g => congrArg Gauge.state (tab_get _ g)
    refine ⟨fun ⟨clear, _⟩ => ⟨fun _ => ?_, fun _ g => by rw [parked]; rfl⟩, fun _ => referenceOk_off ?_⟩
    · rw [loadPart_power]
      exact clear off
    · unfold Part.on
      rw [loadPart_power]
      rfl
  · exact .refl s

theorem KeepsGauges.startConds (s : Part) : KeepsGauges s (startConds s) := by
  have marked := KeepsGauges.foldl (f := fun (t : Part) (x : Cond × Bool) => t.markActive x.1 x.2)
    (fun _ _ => .setMgmt ..) (levelCauses s) s
  exact marked.trans (.setMgmt ..)

/-- The start stage turns the reference on with its mode; the gauges of a part that did not run are not driven (09:
R153). -/
theorem startStep_gauges (s : Part) : KeepsGauges s (startStep s) := by
  unfold startStep
  split
  · rename_i due
    have off : s.on = false := by unfold Part.on; rw [due.1]; rfl
    have started : ∀ p : Power, p.stage = .running → p.settled = false → p.reference = p.mode.referenceOn →
        KeepsGauges s ((s.setPower p).markActive .lowSupply (s.supply < 900)) := fun p stage settled reference => by
      refine ⟨fun ⟨clear, undriven⟩ => ⟨fun _ => settled, fun _ => undriven (clear off)⟩, fun _ _ => reference⟩
    exact (((started _ rfl rfl (by dsimp only; split <;> rfl)).trans (.handMode ..)).trans (.startConds _)).trans
      (.finish _)
  · exact .refl s

theorem tickPart_gauges (s : Part) : KeepsGauges s (tickPart s) :=
  .ite (.refl s) (.of_power rfl rfl rfl rfl rfl)

/-! ### Every command -/

theorem nextPart_gauges {s t : State} {p : Part} (h : KeepsGauges s.part p) (next : s.nextPart p = .next t) :
    KeepsGauges s.part t.part := by
  cases next
  exact h

theorem exec_gauges (i : Instr) {s t : State} (next : exec i s = .next t) : KeepsGauges s.part t.part := by
  cases i with
  | startSymbol p => exact nextPart_gauges (onSymbol_gauges _ (.onStart p)) next
  | dataSymbol p n => exact nextPart_gauges (onSymbol_gauges _ (.onData p n)) next
  | endSymbol p => exact nextPart_gauges (onSymbol_gauges _ (.onEnd p)) next
  | abortSymbol p => exact nextPart_gauges (onSymbol_gauges _ (.onBreak p)) next
  | fillSymbol p => exact nextPart_gauges (onSymbol_gauges _ (.onBreak p)) next
  | portQuiet p => exact nextPart_gauges (eventIf_gauges fun _ _ => .onQuiet p _) next
  | lineActivity p =>
    exact nextPart_gauges (eventIf_gauges fun _ quiet => .wakeByLine _ (eq_of_beq quiet)) next
  | transmitStart p => exact nextPart_gauges (eventIf_gauges fun _ _ => .chooseFrame p _) next
  | transmitEnd p => exact nextPart_gauges (transmitEnd_gauges p _) next
  | relayAgeOut p => exact nextPart_gauges (eventIf_gauges fun _ _ => .ageOut p _) next
  | nodeAgeStep => exact nextPart_gauges (nodeAgeStep_gauges _) next
  | duplicateClear n => exact nextPart_gauges (eventIf_gauges fun _ _ => .setNodes ..) next
  | ownNumberTimerExpiry => exact nextPart_gauges (eventIf_gauges fun _ _ => .setRelay ..) next
  | switchState => exact nextPart_gauges (dispatchIf_gauges _ fun _ _ => .switchReport ..) next
  | senderReport => exact nextPart_gauges (dispatchIf_gauges _ fun _ _ => .of_reaction (.reportGauges ..)) next
  | lampStatus => exact nextPart_gauges (dispatchIf_gauges _ fun _ _ => .of_reaction (.lampReport ..)) next
  | unknownKind => exact nextPart_gauges (dispatchIf_gauges _ fun _ _ => .count ..) next
  | read => exact nextPart_gauges (dispatchOp_gauges _ .doRead) next
  | select => exact nextPart_gauges (dispatchOp_gauges _ .doSelect) next
  | readNext => exact nextPart_gauges (dispatchOp_gauges _ .doReadNext) next
  | write => exact nextPart_gauges (dispatchOp_gauges _ fun _ _ => .doWriteAt ..) next
  | writeNext => exact nextPart_gauges (dispatchOp_gauges _ fun _ _ => .doWriteAt ..) next
  | hold => exact nextPart_gauges (dispatchOp_gauges _ .doHold) next
  | release => exact nextPart_gauges (dispatchOp_gauges _ .doRelease) next
  | commit => exact nextPart_gauges (dispatchOp_gauges _ .doCommit) next
  | sleep => exact nextPart_gauges (dispatchOp_gauges _ .doSleep) next
  | assign => exact nextPart_gauges (dispatchOp_gauges _ .doAssign) next
  | reframe => exact nextPart_gauges (dispatchOp_gauges _ .doReframe) next
  | clear => exact nextPart_gauges (dispatchOp_gauges _ .doClear) next
  | clearCounters => exact nextPart_gauges (dispatchOp_gauges _ .doClearCounters) next
  | commitComplete equal => exact nextPart_gauges (commitComplete_gauges equal _) next
  | sampleClock lamps fan => exact nextPart_gauges (eventIf_reaction (.sampleStep ..)) next
  | flashSample lamps => exact nextPart_gauges (eventIf_reaction (.flashSampleStep ..)) next
  | overloadLevelCrossing l i => exact nextPart_gauges (eventIf_reaction (.setChan ..)) next
  | overload l => exact nextPart_gauges (eventIf_reaction (.overloadChan ..)) next
  | shortTrip l => exact nextPart_gauges (eventIf_reaction (.shortChan ..)) next
  | retryTimerExpiry ch => exact nextPart_gauges (eventIf_reaction (.retryChan ..)) next
  | refreshTimerExpiry r => exact nextPart_gauges (refreshExpiry_gauges r _) next
  | onPhaseEdge =>
    exact nextPart_gauges (eventIf_reaction (.onPhaseEdge _)) next
  | offPhaseEdge =>
    exact nextPart_gauges (eventIf_reaction (.offPhaseEdge _)) next
  | rampStep => exact nextPart_gauges (eventIf_reaction (.fanStep _)) next
  | stall i => exact nextPart_gauges (eventIf_reaction (.sampleFan i _)) next
  | stallWaitExpiry => exact nextPart_gauges (eventIf_reaction (.endStallWait _)) next
  | fanOverloadLevelCrossing i => exact nextPart_gauges (eventIf_reaction (.setFan ..)) next
  | fanOverload => exact nextPart_gauges (eventIf_reaction (.overloadFan _)) next
  | gaugeTick => exact nextPart_gauges (eventIf_reaction (.tickGauges _)) next
  | parkRampEnd g => exact nextPart_gauges (eventIf_reaction (.lastRampTick g _)) next
  | ignitionLineChange l high => exact nextPart_gauges (.ite (.refl _) (.setLine ..)) next
  | ignitionDebounceExpiry l => exact nextPart_gauges (debounceExpiry_gauges l _) next
  | supplySample v => exact nextPart_gauges (supplyStep_gauges v _) next
  | nvLoad => exact nextPart_gauges (nvLoadStep_gauges _) next
  | powerOnStart => exact nextPart_gauges (startStep_gauges _) next
  | settlingExpiry => exact nextPart_gauges (eventIf_gauges fun on _ => .settleReference _ on) next
  | idleExpiry => exact nextPart_gauges (eventIf_gauges fun _ _ => .of_power rfl rfl rfl rfl rfl) next
  | dormantEntry =>
    exact nextPart_gauges (eventIf_gauges fun _ due => .of_reaction (.enterDormant _ (entryDue_allParked due))) next
  | quietEntry =>
    exact nextPart_gauges (eventIf_gauges fun _ due => .enterQuiet _ (eq_of_beq (Bool.and_eq_true_iff.1 due).1)) next
  | unknownOp => exact nextPart_gauges (dispatchIf_gauges _ fun _ _ => .serveUnknown ..) next

/-- A step is a command or a tick. -/
theorem step_gauges {s t : State} (next : step s = .next t) : KeepsGauges s.part t.part := by
  unfold step at next
  split at next
  · exact nextPart_gauges (tickPart_gauges _) next
  · rename_i c rest _
    exact exec_gauges (s := { s with pending := rest }) c next

/-- Settles O7: both laws are what every event keeps. -/
theorem stepKeepsGaugeAndReferenceLaws : Obligations.StepKeepsGaugeAndReferenceLaws :=
  ⟨fun _ _ ok next => (step_gauges next).gauges ok, fun _ _ ok next => (step_gauges next).reference ok⟩

end Sys2Proof.Machine
end

section
/-! The curve drive of a reading (08: R133; obligation O52): along rising points it starts and ends at the drives of the
first and the last point and is the nearest whole figure on the straight line between two points. -/

namespace Sys2Proof.Machine

/-! ### Nearest whole figures -/

/-- A figure is the nearest whole one to a quotient, the upper of two: within half a unit, the lower end left out. -/
def nearest (line den : Int) (q : Nat) : Prop := 2 * line - den < 2 * den * q ∧ 2 * den * q ≤ 2 * line + den

theorem roundHalfUp_nearest (num : Nat) {den : Nat} (pos : 0 < den) : nearest num den (roundHalfUp num den) := by
  have below := Nat.div_mul_le_self (2 * num + den) (2 * den)
  have above := Nat.lt_div_mul_add (a := 2 * num + den) (b := 2 * den) (by omega)
  unfold nearest roundHalfUp
  generalize (2 * num + den) / (2 * den) = q at below above ⊢
  rw [Nat.mul_comm] at below above
  zify at below above
  constructor <;> linarith

/-- A whole quotient is its own nearest figure. -/
theorem roundHalfUp_whole (q : Nat) {den : Nat} (pos : 0 < den) : roundHalfUp (q * den) den = q := by
  unfold roundHalfUp
  have split : 2 * (q * den) + den = den + q * (2 * den) := by ring
  rw [split, Nat.add_mul_div_right _ _ (by omega), Nat.div_eq_of_lt (by omega), Nat.zero_add]

theorem nearest_whole (q : Nat) {den : Nat} (pos : 0 < den) : nearest (q * den : Nat) den q := by
  have own := roundHalfUp_nearest (q * den) pos
  rwa [roundHalfUp_whole q pos] at own

/-! ### Between two points -/

/-- The height of the straight line between two points at a reading, times the difference of their readings. -/
def lineAt (a b : CurvePoint) (r : Nat) : Nat := a.drive * (b.reading - r) + b.drive * (r - a.reading)

theorem between_eq {a b : CurvePoint} {r : Nat} (low : a.reading ≤ r) :
    between a b r = roundHalfUp (lineAt a b r) (b.reading - a.reading) := by
  have rest : b.reading - a.reading - (r - a.reading) = b.reading - r := by omega
  unfold between lineAt
  dsimp only
  rw [rest]

theorem between_low {a b : CurvePoint} (rises : a.reading < b.reading) : between a b a.reading = a.drive := by
  rw [between_eq (Nat.le_refl _)]
  unfold lineAt
  rw [Nat.sub_self, Nat.mul_zero, Nat.add_zero]
  exact roundHalfUp_whole _ (Nat.sub_pos_of_lt rises)

/-! ### Along the points -/

section
variable {r : Nat}

/-- The points of a curve, with strictly rising readings (08: R132). -/
def risingPoints (ps : List CurvePoint) : Prop := ps.Pairwise fun a b => a.reading < b.reading

theorem alongCurve_cons_above {p q : CurvePoint} (qs : List CurvePoint) (above : r < q.reading) :
    alongCurve r p (q :: qs) = between p q r := if_neg (Nat.not_le.2 above)

theorem alongCurve_cons_below {p q : CurvePoint} (qs : List CurvePoint) (below : q.reading ≤ r) :
    alongCurve r p (q :: qs) = alongCurve r q qs := if_pos below

/-- At the reading of a point stands its drive. -/
theorem alongCurve_start {p : CurvePoint} {qs : List CurvePoint} (rises : risingPoints (p :: qs)) :
    alongCurve p.reading p qs = p.drive := by
  cases qs with
  | nil => rfl
  | cons q qs =>
    have next : p.reading < q.reading := List.rel_of_pairwise_cons rises List.mem_cons_self
    rw [alongCurve_cons_above qs next, between_low next]

/-- Points at or below the reading are passed by. -/
theorem alongCurve_append {a : CurvePoint} (rest : List CurvePoint) (low : a.reading ≤ r) (pre : List CurvePoint)
    (passed : ∀ q ∈ pre, q.reading ≤ r) (p : CurvePoint) :
    alongCurve r p (pre ++ a :: rest) = alongCurve r a rest := by
  induction pre generalizing p with
  | nil => exact alongCurve_cons_below rest low
  | cons q pre ih =>
    rw [List.cons_append, alongCurve_cons_below _ (passed q List.mem_cons_self)]
    exact ih (fun k mem => passed k (List.mem_cons_of_mem q mem)) q

/-- From any point at or below the reading the curve goes on as if it began there. -/
theorem curveDrive_append {pre rest : List CurvePoint} {a : CurvePoint} (rises : risingPoints (pre ++ a :: rest))
    (low : a.reading ≤ r) : curveDrive r (pre ++ a :: rest) = alongCurve r a rest := by
  have before : ∀ q ∈ pre, q.reading < r := fun q mem =>
    Nat.lt_of_lt_of_le ((List.pairwise_append.1 rises).2.2 q mem a List.mem_cons_self) low
  cases pre with
  | nil =>
    show (if r ≤ a.reading then a.drive else alongCurve r a rest) = _
    split
    · rename_i high
      obtain rfl := Nat.le_antisymm high low
      exact (alongCurve_start rises).symm
    · rfl
  | cons q pre =>
    exact (if_neg (Nat.not_le.2 (before q List.mem_cons_self))).trans
      (alongCurve_append rest low pre (fun k mem => Nat.le_of_lt (before k (List.mem_cons_of_mem q mem))) q)

/-- Between two neighbouring points the drive is the nearest figure on the straight line. -/
theorem curveDrive_nearest {pre post : List CurvePoint} {a b : CurvePoint}
    (rises : risingPoints (pre ++ a :: b :: post)) (low : a.reading ≤ r) (high : r ≤ b.reading) :
    nearest (lineAt a b r) (b.reading - a.reading : Nat) (curveDrive r (pre ++ a :: b :: post)) := by
  have tail : risingPoints (a :: b :: post) := (List.pairwise_append.1 rises).2.1
  have next : a.reading < b.reading := List.rel_of_pairwise_cons tail List.mem_cons_self
  have pos := Nat.sub_pos_of_lt next
  rw [curveDrive_append rises low]
  rcases Nat.lt_or_eq_of_le high with inside | rfl
  · rw [alongCurve_cons_above post inside, between_eq low]
    exact roundHalfUp_nearest _ pos
  · have line : lineAt a b b.reading = b.drive * (b.reading - a.reading) := by simp [lineAt]
    rw [alongCurve_cons_below post (Nat.le_refl _), alongCurve_start tail.of_cons, line]
    exact nearest_whole _ pos

end

/-- Settles O52: the first point by the definition, the last and the inner ones from the point they begin at. -/
theorem curveIsPiecewiseLinear : Obligations.CurveIsPiecewiseLinear := by
  intro ps rises
  refine ⟨fun p rest r whole low => ?_, fun pre p r whole high => ?_, fun pre a b post r whole low high => ?_⟩
  · subst whole
    exact if_pos low
  · subst whole
    exact curveDrive_append rises high
  · subst whole
    have found := curveDrive_nearest rises low high
    unfold nearest lineAt at found
    have line : ((a.drive * (b.reading - r) + b.drive * (r - a.reading) : Nat) : Int) =
        (a.drive : Int) * ((b.reading : Int) - r) + (b.drive : Int) * ((r : Int) - a.reading) := by
      rw [Nat.cast_add, Nat.cast_mul, Nat.cast_mul, Nat.cast_sub high, Nat.cast_sub low]
    rwa [line, Nat.cast_sub (Nat.le_trans low high)] at found

end Sys2Proof.Machine
end

section
/-! What the gauge unit does to single gauges with their samples, drives and outputs (08: R137 to R143): it writes their
records, and raises GAUGE_SLIP. -/

namespace Sys2Proof.Machine

/-! ### The relation -/

/-- Only the records of some gauges are written, besides flags and notices; GAUGE_SLIP is not taken back. -/
structure Moves (some : Fin 4 → Prop) (s t : Part) : Prop extends Steady s t where
  channels : t.channels = s.channels
  arbiter : t.arbiter = s.arbiter
  lamps : t.lamps = s.lamps
  fan : t.fan = s.fan
  tables : t.tables = s.tables
  others : ∀ k, ¬ some k → t.gauge k = s.gauge k
  slip : s.active .gaugeSlip = true → t.active .gaugeSlip = true

section
variable {some : Fin 4 → Prop} {s t : Part}

theorem Moves.refl (some : Fin 4 → Prop) (s : Part) : Moves some s s :=
  ⟨.refl s, rfl, rfl, rfl, rfl, rfl, fun _ _ => rfl, id⟩

theorem Moves.trans {u : Part} (h : Moves some s t) (k : Moves some t u) : Moves some s u where
  toSteady := h.toSteady.trans k.toSteady
  channels := k.channels.trans h.channels
  arbiter := k.arbiter.trans h.arbiter
  lamps := k.lamps.trans h.lamps
  fan := k.fan.trans h.fan
  tables := k.tables.trans h.tables
  others g away := (k.others g away).trans (h.others g away)
  slip := k.slip ∘ h.slip

theorem Moves.ite {a b : Part} {c : Prop} [Decidable c] (ha : Moves some s a) (hb : Moves some s b) :
    Moves some s (if c then a else b) := by
  split
  · exact ha
  · exact hb

theorem Moves.mono {more : Fin 4 → Prop} (h : Moves some s t) (le : ∀ g, some g → more g) : Moves more s t :=
  { h with others := fun k away => h.others k (mt (le k) away) }

theorem Moves.foldl {f : Part → Fin 4 → Part} {gs : List (Fin 4)} (s : Part)
    (hf : ∀ g ∈ gs, ∀ s, Moves some s (f s g)) : Moves some s (gs.foldl f s) := by
  induction gs generalizing s with
  | nil => exact .refl some s
  | cons g gs ih =>
    obtain ⟨first, rest⟩ := List.forall_mem_cons.1 hf
    exact (first s).trans (ih _ rest)

theorem Moves.gaugeCfg (h : Moves some s t) (g : Fin 4) : t.gaugeCfg g = s.gaugeCfg g := by
  unfold Part.gaugeCfg
  rw [h.tables]

theorem Moves.curvePoints (h : Moves some s t) (c : Fin 4) : t.curvePoints c = s.curvePoints c := by
  unfold Part.curvePoints
  rw [h.tables]

theorem Moves.supply (h : Moves some s t) : t.supply = s.supply := by
  unfold Part.supply
  rw [h.power]

end

/-! ### The turn of a gauge -/

/-- Each gauge has its turn: what comes before and after leaves it alone. -/
theorem Moves.turn {f : Part → Fin 4 → Part} (hf : ∀ s g, Moves (· = g) s (f s g)) (s : Part) (g : Fin 4) :
    ∃ v, Moves (· ≠ g) s v ∧ Moves (· ≠ g) (f v g) (allGauges.foldl f s) := by
  obtain ⟨pre, post, split, before, after⟩ := split_gauges allGauges_nodup (List.mem_finRange g)
  have apart : ∀ k, gaugeChan k ≠ gaugeChan g → ∀ u, Moves (· ≠ g) u (f u k) := fun k other u =>
    (hf u k).mono fun j own same => other (congrArg gaugeChan (own.symm.trans same))
  refine ⟨pre.foldl f s, .foldl s fun k mem => apart k (before k mem), ?_⟩
  rw [split, List.foldl_append, List.foldl_cons]
  exact .foldl _ fun k mem => apart k (after k mem)

theorem Moves.own {g : Fin 4} {s t : Part} (h : Moves (· ≠ g) s t) : t.gauge g = s.gauge g :=
  h.others g fun away => away rfl

/-- All turns together. -/
theorem Moves.turns {f : Part → Fin 4 → Part} (hf : ∀ s g, Moves (· = g) s (f s g)) (s : Part) :
    Moves (fun _ => True) s (allGauges.foldl f s) :=
  .foldl s fun g _ u => (hf u g).mono fun _ _ => trivial

/-! ### Single updates -/

theorem Moves.setGauge (s : Part) (g : Fin 4) (r : Gauge) : Moves (· = g) s (s.setGauge g r) :=
  ⟨.setGauge s g r, rfl, rfl, rfl, rfl, rfl, fun _ away => setGauge_ne s r (Ne.symm away), id⟩

/-- A slip raises GAUGE_SLIP (08: R140). -/
theorem slipGauge_active (g : Fin 4) (k : SlipKind) (s : Part) : (slipGauge g k s).active .gaugeSlip = true := by
  unfold slipGauge
  rw [setCond_active, if_pos rfl]

theorem Moves.slipGauge (g : Fin 4) (k : SlipKind) (s : Part) : Moves (· = g) s (slipGauge g k s) := by
  obtain ⟨channels, arbiter, lamps, fan, -⟩ :=
    (FlagsOnly.setCond .gaugeSlip true (s.setGauge g ((s.gauge g).slipped k))).outputs
  have raised : Steady (s.setGauge g ((s.gauge g).slipped k)) (Machine.slipGauge g k s) :=
    .setCond .gaugeSlip true _ fun p down => by cases p <;> cases down
  exact ⟨(Steady.setGauge s g _).trans raised, channels, arbiter, lamps, fan, (Reaction.slipGauge g k s).still.tables,
    fun _ away => slipGauge_ne k s (Ne.symm away), fun _ => slipGauge_active g k s⟩

/-! ### The end of the event -/

/-- The end of an event leaves GAUGE_SLIP, which has no level (10: R177). -/
theorem finish_slip {s : Part} (deferral : s.power.deferral = false) :
    (finish s).active .gaugeSlip = s.active .gaugeSlip := by
  rw [finish_awake deferral]
  show (syncConds s).active .gaugeSlip = _
  by_cases on : s.on = true
  · refine ((syncConds_flags s on).2 .gaugeSlip fun x mem => ?_).1
    simp only [levelCauses, List.mem_cons, List.not_mem_nil, or_false] at mem
    rcases mem with rfl | rfl | rfl | rfl | rfl | rfl | rfl | rfl | rfl | rfl | rfl <;> exact Cond.noConfusion
  · unfold syncConds
    rw [if_neg on]

theorem finish_gauge {s : Part} (deferral : s.power.deferral = false) (g : Fin 4) : (finish s).gauge g = s.gauge g := by
  obtain ⟨-, -, -, -, gauges⟩ := (finish_outputs s (.inl deferral)).1
  unfold Part.gauge
  rw [gauges]

end Sys2Proof.Machine
end

section
/-! A SENDER_REPORT frame at the gauge unit (08: R137, R138, R140; obligation O30). -/

namespace Sys2Proof.Machine

/-! ### A sample arrives -/

section
variable {g : Fin 4} {x : Sample} {s : Part}

/-- A store with room takes the sample (08: R138). -/
theorem takeSample_room (room : (s.gauge g).store.length < 8) :
    takeSample g x s = s.setGauge g { s.gauge g with store := (s.gauge g).store ++ [x] } := if_pos room

/-- A full store gives up its four oldest samples, which is a slip (08: R138, R140). -/
theorem takeSample_full (full : (s.gauge g).store.length = 8) :
    (takeSample g x s).gauge g = { (s.gauge g).slipped .drop with store := (s.gauge g).store.drop 4 ++ [x] } ∧
    (takeSample g x s).active .gaugeSlip = true := by
  have dropped : takeSample g x s = (slipGauge g .drop s).setGauge g
      { (slipGauge g .drop s).gauge g with store := (s.gauge g).store.drop ((s.gauge g).store.length - 4) ++ [x] } :=
    if_neg (by omega)
  rw [dropped, setGauge_gauge, slipGauge_gauge, full]
  exact ⟨rfl, slipGauge_active g .drop s⟩

theorem Moves.takeSample (g : Fin 4) (x : Sample) (s : Part) : Moves (· = g) s (takeSample g x s) :=
  .ite (.setGauge ..) ((Moves.slipGauge g .drop s).trans (.setGauge ..))

end

/-! ### The slot of a gauge -/

/-- A report reaches a gauge: a SENDER gauge of its source, driven by samples, whose slot the frame has (08: R137). -/
def Part.reported (s : Part) (source : Nat) (payload : List Byte) (g : Fin 4) : Prop :=
  (s.gaugeCfg g).source = .sender ∧ (s.gaugeCfg g).node = source ∧ 2 * (s.gaugeCfg g).slot + 1 < payload.length ∧
    ((s.gauge g).state = .tracking ∨ (s.gauge g).state = .repeating)

/-- The figure of the slot a gauge names (08: R137). -/
def Part.slotFigure (s : Part) (payload : List Byte) (g : Fin 4) : Nat :=
  256 * (payload.getD (2 * (s.gaugeCfg g).slot) 0).toNat + (payload.getD (2 * (s.gaugeCfg g).slot + 1) 0).toNat

section
variable {source : Nat} {payload : List Byte} {s : Part} {g : Fin 4}

theorem Moves.reportGauge (source : Nat) (payload : List Byte) (s : Part) (g : Fin 4) :
    Moves (· = g) s (reportGauge source payload s g) := by
  unfold Machine.reportGauge
  refine .ite ?_ (.refl _ s)
  split
  · exact .takeSample g _ s
  · exact .refl _ s

theorem reportGauge_away (away : ¬ s.reported source payload g) : reportGauge source payload s g = s := if_neg away

theorem reportGauge_eq (reached : s.reported source payload g) : reportGauge source payload s g =
    match slotSample (payload.getD (2 * (s.gaugeCfg g).slot) 0) (payload.getD (2 * (s.gaugeCfg g).slot + 1) 0) with
    | some x => takeSample g x s
    | none => s := by
  unfold reportGauge
  exact if_pos reached

/-- A figure that is neither a reading nor an open sender changes nothing. -/
theorem reportGauge_other (reached : s.reported source payload g) (high : 1023 < s.slotFigure payload g)
    (closed : s.slotFigure payload g ≠ 65535) : reportGauge source payload s g = s := by
  have none : slotSample (payload.getD (2 * (s.gaugeCfg g).slot) 0)
      (payload.getD (2 * (s.gaugeCfg g).slot + 1) 0) = none := by
    unfold Part.slotFigure at high closed
    rw [Nat.mul_comm 256] at high closed
    exact (if_neg (Nat.not_le.2 high)).trans (if_neg closed)
  rw [reportGauge_eq reached, none]

/-- A reading or an open sender is a sample for the gauge. -/
theorem reportGauge_sample (reached : s.reported source payload g) {x : Sample}
    (sample : s.slotFigure payload g ≤ 1023 ∧ x = .reading (s.slotFigure payload g) ∨
      s.slotFigure payload g = 65535 ∧ x = .open_) : reportGauge source payload s g = takeSample g x s := by
  have some : slotSample (payload.getD (2 * (s.gaugeCfg g).slot) 0)
      (payload.getD (2 * (s.gaugeCfg g).slot + 1) 0) = some x := by
    unfold Part.slotFigure at sample
    rw [Nat.mul_comm 256] at sample
    unfold slotSample
    rcases sample with ⟨low, rfl⟩ | ⟨open', rfl⟩
    · exact if_pos low
    · dsimp only
      rw [open']
      rfl
  rw [reportGauge_eq reached, some]

end

/-! ### The frame -/

/-- A frame of 1 to 8 slots of 2 bytes (08: R137). -/
def slotsFit (payload : List Byte) : Prop := payload.length ≠ 0 ∧ payload.length % 2 = 0 ∧ payload.length ≤ 16

section
variable {source : Nat} {payload : List Byte}

theorem reportGauges_misfit (misfit : ¬ slotsFit payload) (s : Part) : reportGauges source payload s = s := by
  unfold slotsFit at misfit
  exact if_pos (by omega)

theorem reportGauges_fit (fits : slotsFit payload) (s : Part) :
    reportGauges source payload s = allGauges.foldl (reportGauge source payload) s := by
  obtain ⟨some, even, short⟩ := fits
  exact if_neg (by omega)

theorem Moves.reportGauges (source : Nat) (payload : List Byte) (s : Part) :
    Moves (fun _ => True) s (reportGauges source payload s) :=
  .ite (.refl _ s) (.turns (.reportGauge source payload) s)

/-- The turn of a gauge: it stands as before until then, and its record and GAUGE_SLIP stay after. -/
theorem reportGauges_turn (fits : slotsFit payload) (s : Part) (g : Fin 4) :
    ∃ v, Moves (· ≠ g) s v ∧ (v.reported source payload g ↔ s.reported source payload g) ∧
      v.slotFigure payload g = s.slotFigure payload g ∧
      Moves (· ≠ g) (reportGauge source payload v g) (reportGauges source payload s) := by
  obtain ⟨v, before, after⟩ := Moves.turn (.reportGauge source payload) s g
  refine ⟨v, before, ?_, ?_, ?_⟩
  · unfold Part.reported
    rw [before.own, before.gaugeCfg]
  · unfold Part.slotFigure
    rw [before.gaugeCfg]
  · rw [reportGauges_fit fits]
    exact after

/-- A gauge the frame does not reach keeps its record. -/
theorem reportGauges_away {s : Part} {g : Fin 4} (away : ¬ (slotsFit payload ∧ s.reported source payload g)) :
    (reportGauges source payload s).gauge g = s.gauge g := by
  by_cases fits : slotsFit payload
  · obtain ⟨v, before, reported, -, after⟩ := reportGauges_turn (source := source) fits s g
    rw [after.own, reportGauge_away fun reached => away ⟨fits, reported.1 reached⟩, before.own]
  · rw [reportGauges_misfit fits]

/-- What a frame makes of a gauge it reaches. -/
theorem reportGauges_reached {s : Part} {g : Fin 4} (fits : slotsFit payload) (reached : s.reported source payload g) :
    (1023 < s.slotFigure payload g → s.slotFigure payload g ≠ 65535 →
      (reportGauges source payload s).gauge g = s.gauge g) ∧
    ∀ x, s.slotFigure payload g ≤ 1023 ∧ x = .reading (s.slotFigure payload g) ∨
        s.slotFigure payload g = 65535 ∧ x = .open_ →
      ((s.gauge g).store.length < 8 → (reportGauges source payload s).gauge g =
        { s.gauge g with store := (s.gauge g).store ++ [x] }) ∧
      ((s.gauge g).store.length = 8 → (reportGauges source payload s).active .gaugeSlip = true ∧
        (reportGauges source payload s).gauge g =
          { (s.gauge g).slipped .drop with store := (s.gauge g).store.drop 4 ++ [x] }) := by
  obtain ⟨v, before, reported, figure, after⟩ := reportGauges_turn (source := source) fits s g
  have turn := reported.2 reached
  rw [← figure, ← before.own]
  refine ⟨fun high closed => ?_, fun x sample => ⟨fun room => ?_, fun full => ?_⟩⟩
  · rw [after.own, reportGauge_other turn high closed]
  · rw [after.own, reportGauge_sample turn sample, takeSample_room room, setGauge_gauge]
  · obtain ⟨gauge, active⟩ := takeSample_full (x := x) full
    rw [← reportGauge_sample turn sample] at gauge active
    exact ⟨after.slip active, after.own.trans gauge⟩

end

/-- A SENDER_REPORT frame goes to the gauge unit (02: R34). -/
theorem exec_senderReport {s : State} {e : RxEntry} (awake : s.part.awake = true) (next : s.part.nextEntry = some e)
    (kind : e.kind = 0x21) (dest : e.dest ≠ 0) : exec .senderReport s =
      s.nextPart (finish (reportGauges e.source e.payload (takeEntry s.part))) := by
  have consumer : e.consumer = .gaugeUnit := by
    simp [RxEntry.consumer, kind, dest, kindMgRequest, kindSwitchState, kindSenderReport]
  exact congrArg s.nextPart (dispatchIf_eq _ awake next (beq_iff_eq.2 consumer))

/-- Settles O30, by the turn of each gauge; the taking of the entry and the end of the event leave the outputs. -/
theorem senderReportFeedsGauges : Obligations.SenderReportFeedsGauges := by
  intro s e awake next kind dest deferral u slots fits reaches
  let w := takeEntry u
  let reported := reportGauges e.source e.payload w
  obtain ⟨-, tables, -, power, -, taken⟩ := takeEntry_ready u
  have moves : Moves (fun _ => True) w reported := .reportGauges ..
  have idle : reported.power.deferral = false := by rw [moves.power, power]; exact deferral
  have gauge : ∀ g, w.gauge g = u.gauge g := fun g => by
    obtain ⟨-, -, -, -, gauges⟩ := taken
    unfold Part.gauge
    rw [gauges]
  have cfg : ∀ g, w.gaugeCfg g = u.gaugeCfg g := fun g => by unfold Part.gaugeCfg; rw [tables]
  have reach : ∀ g, reaches g ↔ slotsFit e.payload ∧ w.reported e.source e.payload g := fun g => by
    unfold Part.reported
    rw [gauge, cfg]
    rfl
  have figure : ∀ g, w.slotFigure e.payload g = u.slotFigure e.payload g := fun g => by
    unfold Part.slotFigure
    rw [cfg]
  obtain ⟨channels, arbiter, lamps, fan, -⟩ := taken
  obtain ⟨channels', arbiter', lamps', fan', -⟩ := (finish_outputs reported (.inl idle)).1
  refine ⟨finish reported, exec_senderReport awake next kind dest, fun g away => ?_, fun g reached => ?_,
    channels'.trans (moves.channels.trans channels), arbiter'.trans (moves.arbiter.trans arbiter),
    lamps'.trans (moves.lamps.trans lamps), fan'.trans (moves.fan.trans fan),
    ((Reaction.reportGauges ..).trans (.finish _)).still⟩
  · rw [finish_gauge idle, reportGauges_away (mt (reach g).2 away), gauge]
  · obtain ⟨fit, reached'⟩ := (reach g).1 reached
    have found := reportGauges_reached fit reached'
    rw [figure, gauge] at found
    dsimp only
    rw [finish_gauge idle, finish_slip idle]
    exact found

end Sys2Proof.Machine
end

section
/-! A gauge where grants are made (05: R88 to R90; 08: R136): it stays as it is, or leaves SETTLING. -/

namespace Sys2Proof.Machine

/-! ### The relation -/

/-- A gauge stays as it is, or it was SETTLING and enters its first driven state. -/
structure MayEnter (g : Fin 4) (s t : Part) : Prop where
  tables : t.tables = s.tables
  gauge : t.gauge g = s.gauge g ∨
    (s.gauge g).state = .settling ∧ t.gauge g = (s.gauge g).entered (s.gaugeCfg g)

/-- A first driven state is a driven one, by samples or by the supply (08: R136). -/
theorem entryState_driven (c : GaugeCfg) : GaugeCfg.entryState c = .repeating ∨ GaugeCfg.entryState c = .tracking := by
  unfold GaugeCfg.entryState
  split
  · exact .inl rfl
  · exact .inr rfl

theorem entryState_ne_parking (c : GaugeCfg) : GaugeCfg.entryState c ≠ .parking := by
  rcases entryState_driven c with first | first <;> rw [first] <;> exact GaugeState.noConfusion

section
variable {g : Fin 4} {s t : Part}

theorem MayEnter.refl (g : Fin 4) (s : Part) : MayEnter g s s := ⟨rfl, .inl rfl⟩

theorem MayEnter.gaugeCfg (h : MayEnter g s t) : t.gaugeCfg g = s.gaugeCfg g := by
  unfold Part.gaugeCfg
  rw [h.tables]

theorem MayEnter.trans {u : Part} (h : MayEnter g s t) (k : MayEnter g t u) : MayEnter g s u := by
  refine ⟨k.tables.trans h.tables, ?_⟩
  rcases h.gauge with same | ⟨settling, entered⟩
  · rw [← same, ← h.gaugeCfg]
    exact k.gauge
  · rcases k.gauge with same | ⟨again, -⟩
    · exact .inr ⟨settling, same.trans entered⟩
    · have state : (t.gauge g).state = GaugeCfg.entryState (s.gaugeCfg g) := by rw [entered]; rfl
      rw [state] at again
      rcases entryState_driven (s.gaugeCfg g) with first | first <;> rw [first] at again <;> cases again

theorem MayEnter.ite {a b : Part} {c : Prop} [Decidable c] (ha : MayEnter g s a) (hb : MayEnter g s b) :
    MayEnter g s (if c then a else b) := by
  split
  · exact ha
  · exact hb

theorem MayEnter.of_gauge (tables : t.tables = s.tables) (gauge : t.gauge g = s.gauge g) : MayEnter g s t :=
  ⟨tables, .inl gauge⟩

/-- The figures in use stay when a gauge enters (entry 22). -/
theorem MayEnter.figures (h : MayEnter g s t) :
    (t.gauge g).parkDrive = (s.gauge g).parkDrive ∧ (t.gauge g).lost = (s.gauge g).lost := by
  rcases h.gauge with same | ⟨-, entered⟩
  · rw [same]
    exact ⟨rfl, rfl⟩
  · rw [entered]
    exact ⟨rfl, rfl⟩

end

/-! ### Grants -/

theorem MayEnter.setArbiter (g : Fin 4) (s : Part) (a : Arbiter) : MayEnter g s (s.setArbiter a) := ⟨rfl, .inl rfl⟩

theorem MayEnter.leaveSettling (g k : Fin 4) (s : Part) : MayEnter g s (leaveSettling k s) := by
  unfold Machine.leaveSettling
  split
  · rename_i leaves
    by_cases own : k = g
    · subst own
      exact ⟨rfl, .inr ⟨leaves.1, setGauge_gauge ..⟩⟩
    · exact .of_gauge rfl (setGauge_ne s _ own)
  · exact .refl g s

theorem MayEnter.handGrant (g : Fin 4) (ch : Fin 25) (s : Part) : MayEnter g s (handGrant ch s) := by
  have lamp : MayEnter g s (settleLights (s.setChan ch { s.chan ch with state := .on })) := by
    have lit := (Reaction.setChan s ch { s.chan ch with state := .on }).trans (.settleLights _)
    have left : Leaves (gaugeChan g) (s.setChan ch { s.chan ch with state := .on }) _ := .settleLights _
    exact .of_gauge lit.still.tables (left.gauge g rfl)
  unfold Machine.handGrant
  split
  · exact lamp
  · exact lamp
  · exact .of_gauge rfl rfl
  · exact .leaveSettling g _ s

theorem MayEnter.giveGrant (g : Fin 4) (ch : Fin 25) (amount : Nat) (s : Part) :
    MayEnter g s (giveGrant ch amount s) :=
  (MayEnter.setArbiter ..).trans (.handGrant g ch _)

theorem MayEnter.grantHeads (g : Fin 4) (n : Nat) (s : Part) : MayEnter g s (grantHeads n s) := by
  induction n generalizing s with
  | zero => exact .refl g s
  | succ n ih =>
    unfold Machine.grantHeads
    split
    · exact .refl g s
    · exact .ite (((MayEnter.setArbiter ..).trans (.giveGrant ..)).trans (ih _)) (.refl g s)

theorem MayEnter.grantPass (g : Fin 4) (s : Part) : MayEnter g s (grantPass s) := .grantHeads ..

theorem MayEnter.passAfter (g : Fin 4) (old s : Part) : MayEnter g s (passAfter old s) :=
  .ite (.refl g s) (.grantPass g s)

theorem MayEnter.makeClaim (g : Fin 4) (ch : Fin 25) (amount : Nat) (s : Part) : MayEnter g s (makeClaim ch amount s) :=
  .ite ((MayEnter.setArbiter ..).trans (.grantPass ..))
    (.ite (.giveGrant ..) ((MayEnter.setArbiter ..).trans (.grantPass ..)))

/-! ### The start test -/

section
variable {s : Part} {g : Fin 4}

theorem startTest_stays (stays : s.mayStart g = false) : startTest s g = s := if_neg fun ⟨_, may⟩ =>
  Bool.false_ne_true (stays.symm.trans may)

/-- A PARKED gauge that starts is SETTLING, or driven at once where its claim is granted (08: R135, R136). -/
theorem startTest_starts (parked : (s.gauge g).state = .parked) (may : s.mayStart g = true) :
    MayEnter g (s.setGauge g { s.gauge g with state := .settling }) (startTest s g) := by
  have claimed : startTest s g = makeClaim (gaugeChan g) (s.gaugeCfg g).nominal
      (s.setGauge g { s.gauge g with state := .settling }) := if_pos ⟨parked, may⟩
  rw [claimed]
  exact .makeClaim ..

end

end Sys2Proof.Machine
end

section
/-! The tick at one gauge by its state, and its output (08: R131, R141 to R143). -/

namespace Sys2Proof.Machine

/-! ### A tick at a gauge that takes no sample -/

section
variable {s : Part} {g : Fin 4}

/-- At a gauge that is not driven, and at a LOST one, a tick takes the entry's figures into use (08: R131, R141). -/
theorem tickGauge_still (state : (s.gauge g).state = .parked ∨ (s.gauge g).state = .settling ∨
    (s.gauge g).state = .lost) : tickGauge s g = s.setGauge g ((s.gauge g).takeFigures (s.gaugeCfg g)) := by
  have taken := setGauge_gauge s g ((s.gauge g).takeFigures (s.gaugeCfg g))
  have same : ((s.gauge g).takeFigures (s.gaugeCfg g)).state = (s.gauge g).state := rfl
  unfold tickGauge actGauge
  dsimp only
  rw [taken, same]
  rcases state with state | state | state <;> rw [state]

/-- A PARKING gauge goes on with its ramp (08: R145). -/
theorem tickGauge_parking (state : (s.gauge g).state = .parking) : (tickGauge s g).gauge g =
    ((s.gauge g).takeFigures (s.gaugeCfg g)).rampTick (s.gaugeCfg g) := by
  have taken := setGauge_gauge s g ((s.gauge g).takeFigures (s.gaugeCfg g))
  have same : ((s.gauge g).takeFigures (s.gaugeCfg g)).state = (s.gauge g).state := rfl
  unfold tickGauge actGauge
  dsimp only
  rw [taken, same, state]
  exact setGauge_gauge ..

end

/-! ### The output -/

/-- A gauge with the output of its drive, where it is driven (08: R142, R143). -/
def Part.shown (s : Part) (g : Fin 4) : Gauge :=
  if (s.gauge g).state.driven then { s.gauge g with output := s.gaugeDuty g } else s.gauge g

theorem driveOutput_gauge (s : Part) (g : Fin 4) : (driveOutput s g).gauge g = s.shown g := by
  unfold driveOutput Part.shown
  split
  · exact setGauge_gauge ..
  · rfl

theorem shown_driven {s : Part} {g : Fin 4} (driven : (s.gauge g).state.driven = true) :
    s.shown g = { s.gauge g with output := s.gaugeDuty g } := if_pos driven

theorem shown_rest (s : Part) (g : Fin 4) : s.shown g = { s.gauge g with output := (s.shown g).output } := by
  unfold Part.shown
  split <;> rfl

/-! ### The tick as an update of its gauge -/

theorem Moves.tickSample (g : Fin 4) (s : Part) : Moves (· = g) s (tickSample g s) :=
  .ite (.ite ((Moves.slipGauge g .repeat_ s).trans (.setGauge ..)) (.setGauge ..)) (.ite (.setGauge ..) (.refl _ s))

theorem Moves.useSample (g : Fin 4) (s : Part) : Moves (· = g) s (useSample g s) := by
  unfold Machine.useSample
  dsimp only
  split
  · exact .refl _ s
  · exact .setGauge ..
  · split
    · exact .setGauge ..
    · exact .refl _ s

theorem Moves.actGauge (g : Fin 4) (s : Part) : Moves (· = g) s (actGauge g s) := by
  unfold Machine.actGauge
  dsimp only
  split
  iterate 3 exact .refl _ s
  · exact .setGauge ..
  iterate 2
    split
    · exact (Moves.tickSample g s).trans (.useSample g _)
    · exact .setGauge ..

theorem Moves.tickGauge (s : Part) (g : Fin 4) : Moves (· = g) s (tickGauge s g) :=
  (Moves.setGauge s g ((s.gauge g).takeFigures (s.gaugeCfg g))).trans (.actGauge g _)

theorem Moves.driveOutput (s : Part) (g : Fin 4) : Moves (· = g) s (driveOutput s g) :=
  .ite (.setGauge ..) (.refl _ s)

end Sys2Proof.Machine
end

section
/-! The end of a park ramp (08: R135, R145; obligation O54). -/

namespace Sys2Proof.Machine

/-! ### The gauge is PARKED -/

section
variable {s : Part} {g : Fin 4}

/-- The gauge at the end of its ramp, with its claim and its grant given back and what they free granted to others. -/
def rampParked (s : Part) (g : Fin 4) : Part := passAfter s (parkNow g s)

theorem endRamp_over (done : s.rampOver g = true) : endRamp s g = startTest (rampParked s g) g := if_pos done

theorem endRamp_on (on : s.rampOver g = false) : endRamp s g = s :=
  if_neg (by rw [on]; exact Bool.false_ne_true)

theorem endRamp_within (s : Part) (g : Fin 4) : Within s (endRamp s g) :=
  .ite (((Within.parkNow g s).trans (.passAfter ..)).trans (.startTest _ g)) (.refl s)

theorem rampParked_within (s : Part) (g : Fin 4) : Within s (rampParked s g) :=
  (Within.parkNow g s).trans (.passAfter ..)

/-- No claim, no grant, at rest (08: R145). -/
theorem rampParked_spec (s : Part) (g : Fin 4) : (rampParked s g).queued (gaugeChan g) = [] ∧
    (rampParked s g).grant (gaugeChan g) = 0 ∧
    (rampParked s g).gauge g = (s.gauge g).undriven .parked (s.restOf g) := by
  have undriven : (parkNow g s).gauge g = (s.gauge g).undriven .parked (s.restOf g) := setGauge_gauge ..
  have queued : (parkNow g s).queued (gaugeChan g) = [] := (unclaim_queued ..).trans (if_pos rfl)
  have grant : (parkNow g s).grant (gaugeChan g) = 0 := (vacate_grants ..).trans (if_pos rfl)
  have passed : Spares (gaugeChan g) (parkNow g s) (rampParked s g) := .passAfter ..
  obtain ⟨queued', grant', -⟩ := passed.idle queued
  exact ⟨queued', grant'.trans grant, (passed.gauge g rfl (.inl queued)).trans undriven⟩

end

/-! ### The start conditions -/

/-- The start conditions as the manual gives them (08: R135). -/
theorem mayStart_iff (s : Part) (g : Fin 4) : s.mayStart g = true ↔ s.mode = .running ∧ 0 < (s.gaugeCfg g).nominal ∧
    ((s.gaugeCfg g).source = .supply ∨ ∃ e, s.node (s.gaugeCfg g).node = some e ∧ e.age < 300) := by
  have aged : ∀ e : NodeEntry, e.state ≠ .lost ↔ e.age < 300 := fun e => by
    unfold NodeEntry.state nodeStateOf
    split
    · exact iff_of_true NodeState.noConfusion (by omega)
    · split
      · exact iff_of_true NodeState.noConfusion (by omega)
      · exact iff_of_false (fun lost => lost rfl) (by omega)
  have available : s.available (s.gaugeCfg g).node = true ↔
      ∃ e, s.node (s.gaugeCfg g).node = some e ∧ e.age < 300 := by
    unfold Part.available
    cases s.node (s.gaugeCfg g).node with
    | none => simp
    | some e => simp [aged]
  unfold Part.mayStart Part.senderAtHand
  simp [available, and_assoc]

theorem mayStart_congr {s t : Part} (still : Undisturbed s t) (mode : t.mode = s.mode) (g : Fin 4) :
    t.mayStart g = s.mayStart g := by
  unfold Part.mayStart Part.senderAtHand Part.available Part.gaugeCfg
  rw [mode, still.tables, still.node]

/-! ### The last tick -/

section
variable {s : Part} {g : Fin 4}

/-- The gauge after the ramp's last figure, before it parks. -/
def rampEnded (s : Part) (g : Fin 4) : Part := driveOutput (tickGauge s g) g

theorem lastRampTick_eq (g : Fin 4) (s : Part) : lastRampTick g s = endRamp (rampEnded s g) g := rfl

theorem rampEnded_reaction (s : Part) (g : Fin 4) : Reaction s (rampEnded s g) :=
  (Reaction.tickGauge s g).trans (.driveOutput _ g)

/-- The last figure leaves a PARKING gauge with no tick left and the entry's figures in use. -/
theorem rampEnded_gauge (state : (s.gauge g).state = .parking) : ∃ drive output,
    (rampEnded s g).gauge g = { s.gauge g with
      drive := drive, output := output, rampLeft := (s.gauge g).rampLeft - 1
      parkDrive := (s.gaugeCfg g).parkDrive, lost := (s.gaugeCfg g).lost } := by
  unfold rampEnded
  rw [driveOutput_gauge, shown_rest, tickGauge_parking state]
  exact ⟨_, _, rfl⟩

/-- What the end of a ramp leaves of the gauge at rest: PARKED, or started again (08: R135, R145). -/
theorem endRamp_gauge (done : s.rampOver g = true) :
    (s.mayStart g = false → (endRamp s g).gauge g = (s.gauge g).undriven .parked (s.restOf g) ∧
      (endRamp s g).grant (gaugeChan g) = 0 ∧ (endRamp s g).claimOf (gaugeChan g) = none) ∧
    (s.mayStart g = true → ∃ state, state ≠ .parked ∧ state ≠ .parking ∧
      (endRamp s g).gauge g = { (s.gauge g).undriven .parked (s.restOf g) with state := state }) := by
  obtain ⟨queued, grant, rest⟩ := rampParked_spec s g
  have still : Undisturbed s (rampParked s g) := ((Reaction.parkNow g s).passAfter s).still
  have mode : (rampParked s g).mode = s.mode := congrArg Power.mode (rampParked_within s g).power
  rw [endRamp_over done, ← mayStart_congr still mode]
  refine ⟨fun stays => ?_, fun may => ?_⟩
  · rw [startTest_stays stays]
    exact ⟨rest, grant, (claimOf_none_iff ..).2 queued⟩
  · have begun := (startTest_starts (by rw [rest]; rfl) may).gauge
    rw [setGauge_gauge, rest] at begun
    rcases begun with settling | ⟨-, entered⟩
    · exact ⟨.settling, GaugeState.noConfusion, GaugeState.noConfusion, settling⟩
    · exact ⟨_, entryState_ne_parked _, entryState_ne_parking _, entered⟩

end

/-- The last tick of a park ramp is the command of its gauge alone (08: R145). -/
theorem exec_parkRampEnd {s : State} {g : Fin 4} (on : s.part.on = true) (state : (s.part.gauge g).state = .parking)
    (last : (s.part.gauge g).rampLeft = 1) :
    exec (.parkRampEnd g) s = s.nextPart (finish (lastRampTick g s.part)) :=
  congrArg s.nextPart (eventIf_eq _ on (by rw [state, last]; rfl))

/-- Settles O54: the last figure ends the ramp, the gauge parks, and the start test follows. -/
theorem parkRampEndParks : Obligations.ParkRampEndParks := by
  intro s g on deferral state last u c starts
  let w := rampEnded u g
  have reaction : Reaction u w := rampEnded_reaction u g
  obtain ⟨drive, output, ended⟩ := rampEnded_gauge (s := u) state
  have done : w.rampOver g = true := by
    unfold Part.rampOver
    rw [ended]
    show ((u.gauge g).state == .parking && (u.gauge g).rampLeft - 1 == 0) = true
    rw [state, last]
    rfl
  have power : w.power = u.power := ((Moves.tickGauge u g).trans (.driveOutput _ g)).power
  have rest : w.restOf g = GaugeCfg.rest c := by
    unfold Part.restOf Part.gaugeCfg
    rw [reaction.still.tables, ended]
    rfl
  have may : w.mayStart g = true ↔ starts := by
    rw [mayStart_congr reaction.still (congrArg Power.mode power)]
    exact mayStart_iff u g
  obtain ⟨stays, begins⟩ := endRamp_gauge done
  rw [rest] at stays begins
  have idle : (endRamp w g).power.deferral = false := by
    rw [(endRamp_within w g).power, power]
    exact deferral
  obtain ⟨-, arbiter, -⟩ := (finish_outputs _ (.inl idle)).1
  have kept : (finish (endRamp w g)).grant (gaugeChan g) = (endRamp w g).grant (gaugeChan g) ∧
      (finish (endRamp w g)).claimOf (gaugeChan g) = (endRamp w g).claimOf (gaugeChan g) := by
    unfold Part.grant Part.claimOf
    rw [arbiter]
    exact ⟨rfl, rfl⟩
  have still : Undisturbed u (finish (endRamp w g)) :=
    ((reaction.trans (.endRamp w g)).trans (.finish _)).still
  have resting : ∃ x, (endRamp w g).gauge g = { (w.gauge g).undriven .parked (GaugeCfg.rest c) with state := x } := by
    cases h : w.mayStart g with
    | false => exact ⟨.parked, (stays h).1⟩
    | true =>
      obtain ⟨x, -, -, gauge⟩ := begins h
      exact ⟨x, gauge⟩
  obtain ⟨x, gauge⟩ := resting
  refine ⟨_, exec_parkRampEnd on state last, ?_⟩
  rw [lastRampTick_eq, finish_gauge idle]
  refine ⟨by rw [gauge]; rfl, by rw [gauge]; rfl, by rw [gauge]; rfl, by rw [gauge]; rfl, by rw [gauge]; rfl,
    by rw [gauge, ended]; rfl, fun unmet => ?_, fun met => ?_, still⟩
  · obtain ⟨parked, grant, claim⟩ := stays (Bool.eq_false_iff.2 (mt may.1 unmet))
    exact ⟨by rw [parked]; rfl, kept.1.trans grant, kept.2.trans claim⟩
  · obtain ⟨x, notParked, notParking, gauge⟩ := begins (may.2 met)
    rw [gauge]
    exact ⟨notParked, notParking⟩

end Sys2Proof.Machine
end

section
/-! The figures of a gauge tick: the step of the drive, the supply reading, the output and the park ramp (08: R141 to
R143, R145). -/

namespace Sys2Proof.Machine

/-- A drive moved toward a goal by a damping figure at most (08: R141). -/
def steps (old goal damping new : Nat) : Prop :=
  (old ≤ goal → new = min goal (old + damping)) ∧ (goal ≤ old → new = max goal (old - damping))

theorem damp_steps (old goal damping : Nat) : steps old goal damping (damp old goal damping) := by
  unfold steps damp
  split <;> omega

/-- The filtered supply in 0.02 V units, an odd 0.01 V either way (08: R141; entry 13). -/
theorem supplyReading_spec (supply : Nat) : supplyReading supply ≤ 1023 ∧ (supplyReading supply = supply / 2 ∨
    supplyReading supply = (supply + 1) / 2 ∨ supplyReading supply = 1023 ∧ 1023 ≤ (supply + 1) / 2) := by
  unfold supplyReading
  split <;> omega

/-- A thermal output is the drive over the supply, to the nearest 0.1 %, at most 100 % (08: R142; entry 13). -/
theorem thermalDuty_spec (drive : Nat) {supply : Nat} (powered : 0 < supply) : thermalDuty drive supply ≤ 1000 ∧
    (2 * 1000 * drive ≤ supply * (2 * thermalDuty drive supply + 1) ∨ thermalDuty drive supply = 1000) ∧
    supply * (2 * thermalDuty drive supply) ≤ 2 * 1000 * drive + supply := by
  have whole := Nat.div_add_mod (drive * 1000) supply
  have part := Nat.mod_lt (drive * 1000) powered
  unfold thermalDuty
  rw [if_neg (Nat.ne_of_gt powered)]
  dsimp only
  generalize drive * 1000 / supply = q at whole ⊢
  generalize drive * 1000 % supply = r at whole part ⊢
  have near : ∀ x, (x = q ∧ 2 * r ≤ supply) ∨ (x = q + 1 ∧ supply ≤ 2 * r) → min 1000 x ≤ 1000 ∧
      (2 * 1000 * drive ≤ supply * (2 * min 1000 x + 1) ∨ min 1000 x = 1000) ∧
      supply * (2 * min 1000 x) ≤ 2 * 1000 * drive + supply := fun x rounded => by
    have capped : supply * (2 * min 1000 x) ≤ supply * (2 * x) :=
      Nat.mul_le_mul_left _ (Nat.mul_le_mul_left _ (Nat.min_le_right ..))
    have exact' : 2 * 1000 * drive ≤ supply * (2 * x + 1) ∧ supply * (2 * x) ≤ 2 * 1000 * drive + supply := by
      rcases rounded with ⟨rfl, low⟩ | ⟨rfl, high⟩ <;> constructor <;> nlinarith
    refine ⟨Nat.min_le_left .., ?_, capped.trans exact'.2⟩
    rcases Nat.le_total 1000 x with above | below
    · exact .inr (Nat.min_eq_left above)
    · rw [Nat.min_eq_right below]
      exact .inl exact'.1
  apply near
  split
  · exact .inl ⟨rfl, by omega⟩
  · split
    · split
      · exact .inr ⟨rfl, by omega⟩
      · exact .inl ⟨rfl, by omega⟩
    · exact .inr ⟨rfl, by omega⟩

/-- The figure of a park ramp is the nearest to the straight way over its 15 ticks (08: R145). -/
theorem rampFigure_near (start park : Nat) {taken : Nat} (within : taken ≤ 15) :
    let path : Int := 15 * start + ((park : Int) - start) * taken
    2 * path - 15 < 30 * (rampFigure start park taken : Int) ∧
      30 * (rampFigure start park taken : Int) < 2 * path + 15 := by
  unfold rampFigure roundHalfUp
  dsimp only
  split
  · rename_i rises
    have way : ((park : Int) - start) * taken = ((park - start) * taken : Nat) := by
      rw [Nat.cast_mul, Nat.cast_sub rises]
    rw [way]
    omega
  · rename_i falls
    have way : ((park : Int) - start) * taken = -((start - park) * taken : Nat) := by
      rw [Nat.cast_mul, Nat.cast_sub (Nat.le_of_not_le falls)]
      ring
    have short : (start - park) * taken ≤ (start - park) * 15 := Nat.mul_le_mul_left _ within
    rw [way]
    omega

end Sys2Proof.Machine
end

section
/-! A gauge at a tick: its figures, its sample or the supply, its drive (08: R131, R139, R141, R145). -/

namespace Sys2Proof.Machine

/-! ### Pure figures -/

/-- A gauge with its sample for the tick taken (08: R139). -/
def Gauge.sampled (r : Gauge) : Gauge :=
  match r.state, r.store with
  | .tracking, [] => { r.slipped .repeat_ with state := .repeating }
  | .repeating, x :: y :: z :: more => { r with store := y :: z :: more, last := some x, state := .tracking }
  | .tracking, x :: more => { r with store := more, last := some x }
  | _, _ => r

/-- A gauge whose drive follows its last sample (08: R141). -/
def Gauge.used (r : Gauge) (c : GaugeCfg) (points : List CurvePoint) : Gauge :=
  match r.last with
  | none => r
  | some (.reading v) => r.toward c (Machine.curveDrive v points)
  | some .open_ =>
    match c.open_ with
    | .park => r.toward c (GaugeCfg.rest c)
    | .hold => r

/-- A gauge after a tick but for its output (08: R141): `tickGauge_gauge`. -/
def Gauge.ticked (r : Gauge) (c : GaugeCfg) (points : List CurvePoint) (supply : Nat) : Gauge :=
  match r.state with
  | .parked | .settling | .lost => r.takeFigures c
  | .parking => (r.takeFigures c).rampTick c
  | .tracking | .repeating =>
    match c.source with
    | .sender => (r.takeFigures c).sampled.used c points
    | .supply => (r.takeFigures c).toward c (Machine.curveDrive (supplyReading supply) points)

section
variable {r : Gauge} {c : GaugeCfg} {points : List CurvePoint}

/-- Following a sample moves the drive and the curve drive alone. -/
theorem used_rest (r : Gauge) (c : GaugeCfg) (points : List CurvePoint) : r.used c points =
    { r with drive := (r.used c points).drive, curveDrive := (r.used c points).curveDrive } := by
  unfold Gauge.used
  split
  · rfl
  · rfl
  · split <;> rfl

theorem used_reading {v : Nat} (last : r.last = some (.reading v)) :
    (r.used c points).curveDrive = curveDrive v points ∧
      steps r.drive (curveDrive v points) c.damping (r.used c points).drive := by
  unfold Gauge.used
  rw [last]
  exact ⟨rfl, damp_steps ..⟩

theorem used_open (last : r.last = some .open_) (parks : c.open_ = .park) :
    steps r.drive (GaugeCfg.rest c) c.damping (r.used c points).drive := by
  unfold Gauge.used
  rw [last, parks]
  exact damp_steps ..

theorem used_stays (stays : r.last = none ∨ r.last = some .open_ ∧ c.open_ = .hold) :
    (r.used c points).drive = r.drive := by
  unfold Gauge.used
  rcases stays with last | ⟨last, holds⟩
  · rw [last]
  · rw [last, holds]

/-- Taking a sample leaves the drive. -/
theorem sampled_drive (r : Gauge) : r.sampled.drive = r.drive := by
  unfold Gauge.sampled
  split <;> rfl

/-- A gauge driven by samples goes on so. -/
theorem sampled_state (state : r.state = .tracking ∨ r.state = .repeating) :
    r.sampled.state = .tracking ∨ r.sampled.state = .repeating := by
  unfold Gauge.sampled
  split
  · exact .inr rfl
  · exact .inl rfl
  iterate 2 exact state

/-- The figures of the entry are no matter of the sample (entry 22). -/
theorem sampled_figures (r : Gauge) (park : Nat) (lost : GaugeBehaviour) :
    { r with parkDrive := park, lost := lost : Gauge }.sampled =
      { r.sampled with parkDrive := park, lost := lost } := by
  unfold Gauge.sampled
  dsimp only
  split <;> rfl

/-- A tick takes the entry's figures into use (08: R131; entry 22). -/
theorem takeFigures_driven (driven : r.state.driven = true) (c : GaugeCfg) :
    r.takeFigures c = { r with parkDrive := c.parkDrive, lost := c.lost } := by
  unfold Gauge.takeFigures
  rw [if_pos driven]

theorem takeFigures_undriven (undriven : r.state.driven = false) (c : GaugeCfg) :
    r.takeFigures c = { r with drive := GaugeCfg.rest c, parkDrive := c.parkDrive, lost := c.lost } := by
  unfold Gauge.takeFigures
  rw [undriven]
  rfl

/-! ### The tick by the state -/

theorem driven_of_sampling (state : r.state = .tracking ∨ r.state = .repeating) : r.state.driven = true := by
  rcases state with state | state <;> rw [state] <;> rfl

theorem ticked_sender (source : c.source = .sender) (state : r.state = .tracking ∨ r.state = .repeating)
    (supply : Nat) : r.ticked c points supply =
      { r.sampled with parkDrive := c.parkDrive, lost := c.lost : Gauge }.used c points := by
  rw [← sampled_figures, ← takeFigures_driven (driven_of_sampling state)]
  unfold Gauge.ticked
  rcases state with state | state <;> rw [state, source]

theorem ticked_supply (source : c.source = .supply) (state : r.state = .tracking ∨ r.state = .repeating)
    (supply : Nat) : r.ticked c points supply =
      { r with parkDrive := c.parkDrive, lost := c.lost : Gauge }.toward c
        (curveDrive (supplyReading supply) points) := by
  rw [← takeFigures_driven (driven_of_sampling state)]
  unfold Gauge.ticked
  rcases state with state | state <;> rw [state, source]

theorem ticked_parking (state : r.state = .parking) (supply : Nat) : r.ticked c points supply =
    { r with parkDrive := c.parkDrive, lost := c.lost : Gauge }.rampTick c := by
  rw [← takeFigures_driven (by rw [state]; rfl)]
  unfold Gauge.ticked
  rw [state]

theorem ticked_lost (state : r.state = .lost) (supply : Nat) : r.ticked c points supply =
    { r with parkDrive := c.parkDrive, lost := c.lost } := by
  rw [← takeFigures_driven (by rw [state]; rfl)]
  unfold Gauge.ticked
  rw [state]

theorem ticked_undriven (state : r.state = .parked ∨ r.state = .settling) (supply : Nat) : r.ticked c points supply =
    { r with drive := GaugeCfg.rest c, parkDrive := c.parkDrive, lost := c.lost } := by
  rw [← takeFigures_undriven (by rcases state with state | state <;> rw [state] <;> rfl)]
  unfold Gauge.ticked
  rcases state with state | state <;> rw [state]

/-- A gauge driven by samples or the supply goes on so, with the entry's figures. -/
theorem ticked_sampling (state : r.state = .tracking ∨ r.state = .repeating) (supply : Nat) :
    (r.ticked c points supply).parkDrive = c.parkDrive ∧ (r.ticked c points supply).lost = c.lost ∧
      ((r.ticked c points supply).state = .tracking ∨ (r.ticked c points supply).state = .repeating) := by
  cases source : c.source with
  | sender =>
    rw [ticked_sender source state, used_rest]
    exact ⟨rfl, rfl, sampled_state state⟩
  | supply =>
    rw [ticked_supply source state]
    exact ⟨rfl, rfl, state⟩

/-- A gauge that takes no sample keeps its state, with the entry's figures. -/
theorem ticked_other (tracking : r.state ≠ .tracking) (repeating : r.state ≠ .repeating) (supply : Nat) :
    (r.ticked c points supply).parkDrive = c.parkDrive ∧ (r.ticked c points supply).lost = c.lost ∧
      (r.ticked c points supply).state = r.state := by
  cases state : r.state with
  | parked | settling =>
    rw [ticked_undriven (by simp [state])]
    exact ⟨rfl, rfl, state⟩
  | parking =>
    rw [ticked_parking state]
    exact ⟨rfl, rfl, state⟩
  | lost =>
    rw [ticked_lost state]
    exact ⟨rfl, rfl, state⟩
  | tracking => exact absurd state tracking
  | repeating => exact absurd state repeating

/-- After a tick the figures in use are the entry's (08: R131). -/
theorem ticked_figures (r : Gauge) (c : GaugeCfg) (points : List CurvePoint) (supply : Nat) :
    (r.ticked c points supply).parkDrive = c.parkDrive ∧ (r.ticked c points supply).lost = c.lost := by
  by_cases sampling : r.state = .tracking ∨ r.state = .repeating
  · obtain ⟨park, lost, -⟩ := ticked_sampling (c := c) (points := points) sampling supply
    exact ⟨park, lost⟩
  · obtain ⟨tracking, repeating⟩ := not_or.1 sampling
    obtain ⟨park, lost, -⟩ := ticked_other (c := c) (points := points) tracking repeating supply
    exact ⟨park, lost⟩

/-- A tick begins no ramp. -/
theorem ticked_ne_parking (away : r.state ≠ .parking) (supply : Nat) :
    (r.ticked c points supply).state ≠ .parking := by
  by_cases sampling : r.state = .tracking ∨ r.state = .repeating
  · obtain ⟨-, -, state | state⟩ := ticked_sampling (c := c) (points := points) sampling supply <;>
      rw [state] <;> exact GaugeState.noConfusion
  · obtain ⟨tracking, repeating⟩ := not_or.1 sampling
    obtain ⟨-, -, state⟩ := ticked_other (c := c) (points := points) tracking repeating supply
    rw [state]
    exact away

end

/-! ### The tick at one gauge -/

section
variable {s : Part} {g : Fin 4}

theorem tickSample_gauge (state : (s.gauge g).state = .tracking ∨ (s.gauge g).state = .repeating) :
    (tickSample g s).gauge g = (s.gauge g).sampled := by
  have advanced := setGauge_gauge s g (s.gauge g).advance
  unfold tickSample Gauge.sampled
  dsimp only
  rcases state with state | state
  · cases store : (s.gauge g).store with
    | nil => simp [state, slipGauge_gauge]
    | cons x more =>
      rw [if_pos state, if_neg (List.cons_ne_nil x more), advanced]
      simp [Gauge.advance, store, state]
  · have away : (s.gauge g).state ≠ .tracking := by rw [state]; exact GaugeState.noConfusion
    rw [if_neg away]
    rcases store : (s.gauge g).store with - | ⟨x, - | ⟨y, - | ⟨z, more⟩⟩⟩
    case cons.cons.cons =>
      rw [if_pos (by simp), advanced]
      simp [Gauge.advance, store, state]
    all_goals
      rw [if_neg (by simp)]
      simp [state]

/-- A gauge in TRACKING with no sample slips (08: R139, R140). -/
theorem tickSample_slips (state : (s.gauge g).state = .tracking) (store : (s.gauge g).store = []) :
    (tickSample g s).active .gaugeSlip = true := by
  unfold tickSample
  rw [if_pos state, if_pos store]
  exact slipGauge_active g .repeat_ s

theorem useSample_gauge (s : Part) (g : Fin 4) : (useSample g s).gauge g =
    (s.gauge g).used (s.gaugeCfg g) (s.curvePoints (s.gaugeCfg g).curve) := by
  unfold useSample Gauge.used
  dsimp only
  cases (s.gauge g).last with
  | none => rfl
  | some x =>
    cases x with
    | reading v => exact setGauge_gauge ..
    | open_ =>
      cases (s.gaugeCfg g).open_ with
      | park => exact setGauge_gauge ..
      | hold => rfl

theorem actGauge_sender (source : (s.gaugeCfg g).source = .sender)
    (state : (s.gauge g).state = .tracking ∨ (s.gauge g).state = .repeating) :
    actGauge g s = useSample g (tickSample g s) := by
  unfold actGauge
  dsimp only
  rcases state with state | state <;> rw [state, source]

theorem actGauge_supply (source : (s.gaugeCfg g).source = .supply)
    (state : (s.gauge g).state = .tracking ∨ (s.gauge g).state = .repeating) :
    (actGauge g s).gauge g = (s.gauge g).toward (s.gaugeCfg g)
      (curveDrive (supplyReading s.supply) (s.curvePoints (s.gaugeCfg g).curve)) := by
  unfold actGauge
  dsimp only
  rcases state with state | state <;> rw [state, source] <;> exact setGauge_gauge ..

/-- The tick makes of its gauge what its record, its entry, its curve and the supply say (08: R141). -/
theorem tickGauge_gauge (s : Part) (g : Fin 4) : (tickGauge s g).gauge g =
    (s.gauge g).ticked (s.gaugeCfg g) (s.curvePoints (s.gaugeCfg g).curve) s.supply := by
  let v := s.setGauge g ((s.gauge g).takeFigures (s.gaugeCfg g))
  have taken : v.gauge g = (s.gauge g).takeFigures (s.gaugeCfg g) := setGauge_gauge ..
  have samples : (s.gauge g).state = .tracking ∨ (s.gauge g).state = .repeating →
      (tickGauge s g).gauge g =
        (s.gauge g).ticked (s.gaugeCfg g) (s.curvePoints (s.gaugeCfg g).curve) s.supply := fun state => by
    have state' : (v.gauge g).state = .tracking ∨ (v.gauge g).state = .repeating := by rw [taken]; exact state
    have figures := takeFigures_driven (driven_of_sampling state) (s.gaugeCfg g)
    cases source : (s.gaugeCfg g).source with
    | sender =>
      have moves := Moves.tickSample g v
      show (actGauge g v).gauge g = _
      rw [actGauge_sender (s := v) source state', useSample_gauge, tickSample_gauge state', moves.gaugeCfg,
        moves.curvePoints, taken, figures, sampled_figures, ticked_sender source state]
      rfl
    | supply =>
      rw [ticked_supply source state, ← figures, ← taken]
      exact actGauge_supply (s := v) source state'
  have still : (s.gauge g).state = .parked ∨ (s.gauge g).state = .settling ∨ (s.gauge g).state = .lost →
      (tickGauge s g).gauge g = (s.gauge g).takeFigures (s.gaugeCfg g) := fun state => by
    rw [tickGauge_still state]
    exact taken
  unfold Gauge.ticked at samples ⊢
  cases state : (s.gauge g).state with
  | parked | settling | lost => exact still (by simp [state])
  | parking => exact tickGauge_parking state
  | tracking | repeating =>
    rw [state] at samples
    exact samples (by simp)

theorem tickGauge_slips (source : (s.gaugeCfg g).source = .sender) (state : (s.gauge g).state = .tracking)
    (store : (s.gauge g).store = []) : (tickGauge s g).active .gaugeSlip = true := by
  let v := s.setGauge g ((s.gauge g).takeFigures (s.gaugeCfg g))
  have taken : v.gauge g = (s.gauge g).takeFigures (s.gaugeCfg g) := setGauge_gauge ..
  have tracking : (v.gauge g).state = .tracking := by rw [taken]; exact state
  have empty : (v.gauge g).store = [] := by rw [taken]; exact store
  show (actGauge g v).active .gaugeSlip = true
  rw [actGauge_sender (s := v) source (.inl tracking)]
  exact (Moves.useSample g _).slip (tickSample_slips tracking empty)

end

end Sys2Proof.Machine
end

section
/-! The outputs and the ends of the ramps at a tick (08: R142, R143, R145; obligation O53). -/

namespace Sys2Proof.Machine

/-! ### The outputs -/

/-- The output is the one the drive asks for: the drive of a coil, the nearest duty of a thermal gauge (08: R142). -/
def Gauge.shows (x : Gauge) (c : GaugeCfg) (supply : Nat) : Prop :=
  (c.type = .coil → x.output = x.drive) ∧
  (c.type = .thermal → 0 < supply → x.output ≤ 1000 ∧
    (2 * 1000 * x.drive ≤ supply * (2 * x.output + 1) ∨ x.output = 1000) ∧
    supply * (2 * x.output) ≤ 2 * 1000 * x.drive + supply)

theorem shown_shows {s : Part} {g : Fin 4} (driven : (s.gauge g).state.driven = true) :
    (s.shown g).shows (s.gaugeCfg g) s.supply := by
  rw [shown_driven driven]
  unfold Gauge.shows Part.gaugeDuty
  refine ⟨fun coil => ?_, fun thermal powered => ?_⟩
  · rw [coil]
  · rw [thermal]
    exact thermalDuty_spec _ powered

/-- The figures in use of a gauge (08: R131). -/
def Gauge.figures (r : Gauge) : Nat × GaugeBehaviour := (r.parkDrive, r.lost)

theorem figures_eq_iff {r : Gauge} {park : Nat} {lost : GaugeBehaviour} :
    r.figures = (park, lost) ↔ r.parkDrive = park ∧ r.lost = lost := Prod.mk_inj

/-- An output changes neither the state nor the ramp nor the figures in use. -/
theorem output_keeps (x : Gauge) (output : Nat) : { x with output := output }.state = x.state ∧
    { x with output := output }.rampLeft = x.rampLeft ∧ { x with output := output }.figures = x.figures :=
  ⟨rfl, rfl, rfl⟩

/-- All gauges after their ticks, with their outputs, before the ramps end. -/
def gaugesDriven (s : Part) : Part := allGauges.foldl driveOutput (allGauges.foldl tickGauge s)

theorem tickGauges_eq (s : Part) : tickGauges s = allGauges.foldl endRamp (gaugesDriven s) := rfl

theorem Moves.gaugesDriven (s : Part) : Moves (fun _ => True) s (gaugesDriven s) :=
  (Moves.turns .tickGauge s).trans (.turns .driveOutput _)

section
variable (s : Part) (g : Fin 4)

/-- What the tick makes of a gauge, but for its output. -/
def Part.tickedGauge : Gauge :=
  (s.gauge g).ticked (s.gaugeCfg g) (s.curvePoints (s.gaugeCfg g).curve) s.supply

/-- Each gauge has its own tick and its own output. -/
theorem gaugesDriven_turn : ∃ w, Moves (fun _ => True) s w ∧ w.gauge g = s.tickedGauge g ∧
    (gaugesDriven s).gauge g = w.shown g := by
  obtain ⟨v, before, after⟩ := Moves.turn .tickGauge s g
  obtain ⟨w, before', after'⟩ := Moves.turn .driveOutput (allGauges.foldl tickGauge s) g
  refine ⟨w, (Moves.turns .tickGauge s).trans (before'.mono fun _ _ => trivial), ?_, ?_⟩
  · rw [before'.own, after.own, tickGauge_gauge, before.own, before.gaugeCfg, before.curvePoints, before.supply]
    rfl
  · exact after'.own.trans (driveOutput_gauge w g)

theorem gaugesDriven_rest : (gaugesDriven s).gauge g =
    { s.tickedGauge g with output := ((gaugesDriven s).gauge g).output } := by
  obtain ⟨w, -, ticked, shown⟩ := gaugesDriven_turn s g
  rw [shown, ← ticked]
  exact shown_rest w g

theorem gaugesDriven_keeps : ((gaugesDriven s).gauge g).state = (s.tickedGauge g).state ∧
    ((gaugesDriven s).gauge g).rampLeft = (s.tickedGauge g).rampLeft ∧
    ((gaugesDriven s).gauge g).figures = (s.tickedGauge g).figures := by
  rw [gaugesDriven_rest]
  exact output_keeps ..

theorem gaugesDriven_undriven (undriven : (s.tickedGauge g).state.driven = false) :
    (gaugesDriven s).gauge g = s.tickedGauge g := by
  obtain ⟨w, -, ticked, shown⟩ := gaugesDriven_turn s g
  rw [shown, ← ticked]
  exact if_neg (by rw [ticked, undriven]; exact Bool.false_ne_true)

theorem gaugesDriven_shows (driven : (s.tickedGauge g).state.driven = true) :
    ((gaugesDriven s).gauge g).shows (s.gaugeCfg g) s.supply := by
  obtain ⟨w, moves, ticked, shown⟩ := gaugesDriven_turn s g
  have shows' := shown_shows (s := w) (g := g) (by rw [ticked]; exact driven)
  rw [shown, ← moves.gaugeCfg, ← moves.supply]
  exact shows'

end

/-- A gauge without a sample raises GAUGE_SLIP at its tick (08: R139, R140). -/
theorem gaugesDriven_slips {s : Part} {g : Fin 4} (source : (s.gaugeCfg g).source = .sender)
    (state : (s.gauge g).state = .tracking) (store : (s.gauge g).store = []) :
    (gaugesDriven s).active .gaugeSlip = true := by
  obtain ⟨v, before, after⟩ := Moves.turn .tickGauge s g
  refine (Moves.turns .driveOutput _).slip (after.slip (tickGauge_slips ?_ ?_ ?_))
  · rw [before.gaugeCfg]
    exact source
  · rw [before.own]
    exact state
  · rw [before.own]
    exact store

/-! ### The ends of the ramps -/

theorem Steady.endRamp (s : Part) (g : Fin 4) : Steady s (endRamp s g) :=
  .ite ((Steady.passAfter s ((Steady.setGauge s g _).trans (.setArbiter _ _))).trans (.startTest _ g)) (.refl s)

section
variable {s : Part} {g : Fin 4}

/-- A gauge neither SETTLING nor at the end of its ramp stays. -/
theorem endRamp_stays (k : Fin 4) (away : (s.gauge g).state ≠ .settling) (on : s.rampOver g = false) :
    (endRamp s k).gauge g = s.gauge g := by
  by_cases own : k = g
  · subst own
    rw [endRamp_on on]
  · have other : gaugeChan k ≠ gaugeChan g := fun same => own (gaugeChan_inj same)
    have spares : Spares (gaugeChan g) s (endRamp s k) :=
      .ite (((Leaves.parkNow s other).spares.trans (.passAfter s _)).trans (.startTest _ other)) (.refl _ s)
    exact spares.gauge g rfl (.inr away)

theorem endRamps_stay (gs : List (Fin 4)) (away : (s.gauge g).state ≠ .settling) (on : s.rampOver g = false) :
    (gs.foldl endRamp s).gauge g = s.gauge g := by
  induction gs generalizing s with
  | nil => rfl
  | cons k gs ih =>
    have same := endRamp_stays k away on
    refine (ih (by rw [same]; exact away) ?_).trans same
    unfold Part.rampOver
    rw [same]
    exact on

/-- With no gauge PARKING no ramp ends. -/
theorem endRamps_none (gs : List (Fin 4)) (none : ∀ k, (s.gauge k).state ≠ .parking) : gs.foldl endRamp s = s := by
  induction gs with
  | nil => rfl
  | cons k gs ih =>
    have on : s.rampOver k = false := by
      unfold Part.rampOver
      rw [beq_false_of_ne (none k)]
      rfl
    rw [List.foldl_cons, endRamp_on on, ih]

theorem MayEnter.figures_eq {t : Part} (h : MayEnter g s t) : (t.gauge g).figures = (s.gauge g).figures := by
  obtain ⟨park, lost⟩ := h.figures
  exact Prod.ext park lost

theorem setGauge_figures (s : Part) (g : Fin 4) {k : Fin 4} {r : Gauge} (same : r.figures = (s.gauge k).figures) :
    ((s.setGauge k r).gauge g).figures = (s.gauge g).figures := by
  by_cases own : k = g
  · subst own
    rw [setGauge_gauge, same]
  · rw [setGauge_ne s r own]

theorem endRamp_figures (s : Part) (k : Fin 4) : ((endRamp s k).gauge g).figures = (s.gauge g).figures := by
  have started : ∀ u, ((startTest u k).gauge g).figures = (u.gauge g).figures := fun u => by
    unfold startTest
    split
    · rw [(MayEnter.makeClaim g _ _ _).figures_eq]
      exact setGauge_figures u g rfl
    · rfl
  cases on : s.rampOver k with
  | false => rw [endRamp_on on]
  | true =>
    rw [endRamp_over on, started, rampParked, (MayEnter.passAfter g s _).figures_eq]
    exact setGauge_figures s g rfl

theorem endRamps_figures (gs : List (Fin 4)) (s : Part) :
    ((gs.foldl endRamp s).gauge g).figures = (s.gauge g).figures := by
  induction gs generalizing s with
  | nil => rfl
  | cons k gs ih => exact (ih _).trans (endRamp_figures s k)

end

/-! ### All gauges -/

theorem Steady.tickGauges (s : Part) : Steady s (tickGauges s) :=
  (Moves.gaugesDriven s).toSteady.trans (.foldl .endRamp _ _)

section
variable {s : Part} {g : Fin 4}

theorem tickGauges_figures (s : Part) (g : Fin 4) : ((tickGauges s).gauge g).parkDrive = (s.gaugeCfg g).parkDrive ∧
    ((tickGauges s).gauge g).lost = (s.gaugeCfg g).lost := by
  obtain ⟨-, -, output⟩ := gaugesDriven_keeps s g
  have ticked : (s.tickedGauge g).figures = ((s.gaugeCfg g).parkDrive, (s.gaugeCfg g).lost) :=
    figures_eq_iff.2 (ticked_figures ..)
  refine figures_eq_iff.1 ?_
  rw [tickGauges_eq, endRamps_figures, output, ticked]

/-- A gauge driven after its tick and not at the end of a ramp has the tick's record, with its output. -/
theorem tickGauges_driven (driven : (s.tickedGauge g).state.driven = true)
    (on : (s.tickedGauge g).state = .parking → (s.tickedGauge g).rampLeft ≠ 0) :
    (tickGauges s).gauge g = { s.tickedGauge g with output := ((tickGauges s).gauge g).output } ∧
      ((tickGauges s).gauge g).shows (s.gaugeCfg g) s.supply := by
  obtain ⟨state, left, -⟩ := gaugesDriven_keeps s g
  have away : ((gaugesDriven s).gauge g).state ≠ .settling := fun settling => by
    rw [← state, settling] at driven
    exact Bool.false_ne_true driven
  have going : (gaugesDriven s).rampOver g = false := by
    unfold Part.rampOver
    rw [state, left, Bool.and_eq_false_imp]
    exact fun parking => beq_false_of_ne (on (beq_iff_eq.1 parking))
  have stays : (tickGauges s).gauge g = (gaugesDriven s).gauge g := endRamps_stay allGauges away going
  rw [stays]
  exact ⟨gaugesDriven_rest s g, gaugesDriven_shows s g driven⟩

/-- A gauge that is not driven has the tick's record where no gauge ramps. -/
theorem tickGauges_undriven (undriven : (s.tickedGauge g).state.driven = false)
    (none : ∀ k, (s.gauge k).state ≠ .parking) : (tickGauges s).gauge g = s.tickedGauge g := by
  have none' : ∀ k, ((gaugesDriven s).gauge k).state ≠ .parking := fun k => by
    obtain ⟨state, -⟩ := gaugesDriven_keeps s k
    rw [state]
    exact ticked_ne_parking (none k) s.supply
  rw [tickGauges_eq, endRamps_none allGauges none']
  exact gaugesDriven_undriven s g undriven

theorem tickGauges_slips (source : (s.gaugeCfg g).source = .sender) (state : (s.gauge g).state = .tracking)
    (store : (s.gauge g).store = []) : (tickGauges s).active .gaugeSlip = true := by
  have within : Within (gaugesDriven s) (tickGauges s) := .foldl endRamp_within allGauges _
  unfold Part.active
  rw [within.mgmt]
  exact gaugesDriven_slips source state store

/-- GAUGE_TICK is the tick of all gauges (08: R141). -/
theorem exec_gaugeTick {s : State} (on : s.part.on = true) :
    exec .gaugeTick s = s.nextPart (finish (tickGauges s.part)) :=
  congrArg s.nextPart (eventIf_eq _ on rfl)

end

end Sys2Proof.Machine
end

section
/-! What a gauge tick makes of a gauge by its state (08: R141 to R145; obligation O53). -/

namespace Sys2Proof.Machine

/-! ### The record -/

section
variable {r x : Gauge} {c : GaugeCfg} {points : List CurvePoint} {supply output : Nat}

/-- A gauge driven by a sender's samples (08: R139, R141). -/
theorem sender_tick (source : c.source = .sender) (state : r.state = .tracking ∨ r.state = .repeating)
    (tick : x = { r.ticked c points supply with output := output }) :
    x = { r.sampled with drive := x.drive, curveDrive := x.curveDrive, output := output
                         parkDrive := c.parkDrive, lost := c.lost } ∧
    (∀ v, r.sampled.last = some (.reading v) →
      x.curveDrive = curveDrive v points ∧ steps r.drive (curveDrive v points) c.damping x.drive) ∧
    (r.sampled.last = some .open_ → c.open_ = .park → steps r.drive (GaugeCfg.rest c) c.damping x.drive) ∧
    (r.sampled.last = none ∨ r.sampled.last = some .open_ ∧ c.open_ = .hold → x.drive = r.drive) := by
  subst tick
  rw [ticked_sender source state, ← sampled_drive r]
  refine ⟨congrArg (fun y : Gauge => { y with output := output }) (used_rest ..), fun v last => ?_,
    fun last parks => ?_, fun stays => ?_⟩
  · exact used_reading last
  · exact used_open (r := { r.sampled with parkDrive := c.parkDrive, lost := c.lost }) last parks
  · exact used_stays stays

/-- A gauge driven by the supply (08: R141). -/
theorem supply_tick (source : c.source = .supply) (state : r.state = .tracking ∨ r.state = .repeating)
    (tick : x = { r.ticked c points supply with output := output }) : x.state = r.state ∧
      steps r.drive (curveDrive (supplyReading supply) points) c.damping x.drive := by
  subst tick
  rw [ticked_supply source state]
  exact ⟨rfl, damp_steps ..⟩

/-- A gauge on a park ramp that goes on (08: R145). -/
theorem parking_tick (state : r.state = .parking) (more : 2 ≤ r.rampLeft) (within : r.rampLeft ≤ 15)
    (tick : x = { r.ticked c points supply with output := output }) :
    let k : Int := 15 - (r.rampLeft - 1)
    let path : Int := 15 * r.rampStart + ((c.parkDrive : Int) - r.rampStart) * k
    x.state = .parking ∧ x.rampLeft = r.rampLeft - 1 ∧
      2 * path - 15 < 30 * (x.drive : Int) ∧ 30 * (x.drive : Int) < 2 * path + 15 := by
  subst tick
  rw [ticked_parking state]
  have taken : (15 : Int) - (r.rampLeft - 1) = (15 - (r.rampLeft - 1) : Nat) := by omega
  rw [taken]
  exact ⟨state, rfl, rampFigure_near r.rampStart c.parkDrive (Nat.sub_le ..)⟩

end

/-! ### The part -/

section
variable {s : Part} {g : Fin 4}

theorem tickGauges_sampling (state : (s.gauge g).state = .tracking ∨ (s.gauge g).state = .repeating) :
    (tickGauges s).gauge g = { s.tickedGauge g with output := ((tickGauges s).gauge g).output } ∧
      ((tickGauges s).gauge g).shows (s.gaugeCfg g) s.supply := by
  obtain ⟨-, -, after⟩ := ticked_sampling (c := s.gaugeCfg g)
    (points := s.curvePoints (s.gaugeCfg g).curve) state s.supply
  refine tickGauges_driven (driven_of_sampling after) fun parking => ?_
  rcases after with after | after <;> exact GaugeState.noConfusion (after.symm.trans parking)

theorem tickGauges_parking (state : (s.gauge g).state = .parking) (more : 2 ≤ (s.gauge g).rampLeft) :
    (tickGauges s).gauge g = { s.tickedGauge g with output := ((tickGauges s).gauge g).output } ∧
      ((tickGauges s).gauge g).shows (s.gaugeCfg g) s.supply := by
  have tick : s.tickedGauge g = _ := ticked_parking state s.supply
  refine tickGauges_driven ?_ fun _ => ?_
  · rw [tick]
    exact congrArg GaugeState.driven state
  · rw [tick]
    exact Nat.sub_ne_zero_of_lt more

theorem tickGauges_lost (state : (s.gauge g).state = .lost) :
    ((tickGauges s).gauge g).drive = (s.gauge g).drive ∧ ((tickGauges s).gauge g).state = .lost ∧
      ((tickGauges s).gauge g).shows (s.gaugeCfg g) s.supply := by
  have tick : s.tickedGauge g = { s.gauge g with parkDrive := (s.gaugeCfg g).parkDrive, lost := (s.gaugeCfg g).lost } :=
    ticked_lost state s.supply
  have driven : (s.tickedGauge g).state = .lost := by
    rw [tick]
    exact state
  obtain ⟨record, shows'⟩ := tickGauges_driven (s := s) (g := g) (by rw [driven]; rfl)
    fun parking => GaugeState.noConfusion (driven.symm.trans parking)
  rw [tick] at record
  refine ⟨?_, ?_, shows'⟩
  · rw [record]
  · rw [record]
    exact state

end

/-- Settles O53: the tick's record of the gauge, which the ends of ramps and the end of the event leave. -/
theorem gaugeTickMovesDrives : Obligations.GaugeTickMovesDrives := by
  intro s g on deferral u c r slipped sampled toward output
  let w := tickGauges u
  have steady : Steady u w := .tickGauges u
  have idle : w.power.deferral = false := by
    rw [steady.power]
    exact deferral
  have same : sampled = r.sampled := rfl
  have still : Undisturbed u (finish w) := ((Reaction.tickGauges u).trans (.finish _)).still
  obtain ⟨park, lost⟩ := tickGauges_figures u g
  refine ⟨finish w, exec_gaugeTick on, ?_⟩
  rw [finish_gauge idle g, same]
  refine ⟨fun state => ?_, fun source state => ?_, fun source state => ?_, fun state more within => ?_,
    tickGauges_lost, fun state none => ?_, park, lost, still.tables, still.inputs⟩
  · obtain ⟨-, shows'⟩ := tickGauges_sampling state
    exact shows'
  · obtain ⟨record, -⟩ := tickGauges_sampling state
    obtain ⟨rest, follows⟩ := sender_tick source state record
    refine ⟨rest, fun tracking empty => ?_, follows⟩
    have slips : (finish w).active .gaugeSlip = true :=
      (finish_slip idle).trans (tickGauges_slips source tracking empty)
    refine ⟨slips, fun before => (steady.toFollows.trans (.finish w)).marked .gaugeSlip ?_⟩
    rw [slips, before]
    exact Bool.noConfusion
  · obtain ⟨record, -⟩ := tickGauges_sampling state
    obtain ⟨most, reading⟩ := supplyReading_spec u.supply
    exact ⟨supplyReading u.supply, most, reading, supply_tick source state record⟩
  · obtain ⟨record, shows'⟩ := tickGauges_parking state more
    obtain ⟨parking, left, figure⟩ := parking_tick state more within record
    exact ⟨parking, left, shows', figure⟩
  · have tick : u.tickedGauge g = _ := ticked_undriven state u.supply
    rw [tickGauges_undriven ?_ none, tick]
    rw [tick]
    rcases state with state | state <;> exact congrArg GaugeState.driven state

end Sys2Proof.Machine
end

section
/-! A mode or an ignition state handed to the blocks leaves a SLEEP that waits (09: R155; 10: R173). -/

namespace Sys2Proof.Machine

/-! ### The relation -/

/-- A SLEEP that waits goes on waiting, and none is taken in. -/
structure KeepsSleep (s t : Part) : Prop where
  sleep : t.mgmt.sleep = s.mgmt.sleep

section
variable {s t : Part}

theorem KeepsSleep.refl (s : Part) : KeepsSleep s s := ⟨rfl⟩

theorem KeepsSleep.trans {u : Part} (h : KeepsSleep s t) (k : KeepsSleep t u) : KeepsSleep s u :=
  ⟨k.sleep.trans h.sleep⟩

theorem KeepsSleep.ite {a b : Part} {c : Prop} [Decidable c] (ha : KeepsSleep s a) (hb : KeepsSleep s b) :
    KeepsSleep s (if c then a else b) := by
  split
  · exact ha
  · exact hb

theorem KeepsSleep.foldl {α : Type} {f : Part → α → Part} (hf : ∀ s x, KeepsSleep s (f s x)) (xs : List α)
    (s : Part) : KeepsSleep s (xs.foldl f s) := by
  induction xs generalizing s with
  | nil => exact .refl s
  | cons x xs ih => exact (hf s x).trans (ih _)

/-- An update apart from the management unit. -/
theorem KeepsSleep.of_mgmt (mgmt : t.mgmt = s.mgmt) : KeepsSleep s t := ⟨congrArg Mgmt.sleep mgmt⟩

theorem KeepsSleep.of_within (h : Within s t) : KeepsSleep s t := .of_mgmt h.mgmt

/-- What is done after a first step that leaves the management unit alone. -/
theorem KeepsSleep.after {u : Part} (k : KeepsSleep t u) (mgmt : t.mgmt = s.mgmt) : KeepsSleep s u :=
  (KeepsSleep.of_mgmt mgmt).trans k

end

/-! ### Conditions and grants -/

theorem oweNotice_sleep (c : Cond) (s : Part) : (oweNotice c s).mgmt.sleep = s.mgmt.sleep := by
  unfold oweNotice
  split
  · rw [(requestNotice_replies _).2]
  · rfl

theorem KeepsSleep.setCond (c : Cond) (b : Bool) (s : Part) : KeepsSleep s (setCond c b s) := by
  refine .ite (.refl s) (.ite ⟨rfl⟩ ⟨?_⟩)
  rw [oweNotice_sleep]
  rfl

theorem KeepsSleep.syncConds (s : Part) : KeepsSleep s (syncConds s) :=
  .ite (.foldl (fun t (x : Cond × Bool) => .setCond x.1 x.2 t) _ s) (.refl s)

theorem KeepsSleep.grantPass (s : Part) : KeepsSleep s (grantPass s) := .of_within (.grantPass s)

theorem KeepsSleep.makeClaim (ch : Fin 25) (amount : Nat) (s : Part) : KeepsSleep s (makeClaim ch amount s) :=
  .of_within (.makeClaim ch amount s)

theorem KeepsSleep.passAfter {s t : Part} (old : Part) (h : KeepsSleep s t) : KeepsSleep s (passAfter old t) :=
  h.trans (.of_within (.passAfter old t))

theorem handShed_mgmt (ch : Fin 25) (s : Part) : (handShed ch s).mgmt = s.mgmt := by
  unfold handShed
  split
  · exact (Within.settleLights _).mgmt
  · exact (Within.settleLights _).mgmt
  · rfl
  · unfold gaugeShed
    split <;> rfl

theorem KeepsSleep.shedSome (n : Nat) (s : Part) : KeepsSleep s (shedSome n s) := by
  induction n generalizing s with
  | zero => exact .refl s
  | succ n ih =>
    unfold Machine.shedSome
    refine .ite (.refl s) ?_
    split
    · exact .refl s
    · exact (ih _).after (handShed_mgmt _ _)

theorem KeepsSleep.selectLimit (s : Part) : KeepsSleep s (selectLimit s) := by
  have limited : ∀ new, KeepsSleep s (s.setArbiter { s.arbiter with limit := new }) := fun _ => ⟨rfl⟩
  exact .ite (.refl s)
    (KeepsSleep.trans (.ite ((limited _).trans (.grantPass _)) ((limited _).trans (.shedSome _ _))) (.syncConds _))

/-! ### Lamp logic -/

theorem KeepsSleep.setDemand (ch : Fin 25) (d : Demand) (s : Part) : KeepsSleep s (setDemand ch d s) := by
  have off : KeepsSleep s (turnOff ch s) :=
    .passAfter s (KeepsSleep.after (.of_within (.settleLights _)) rfl)
  have claimed : KeepsSleep s (claimChan ch (s.setChan ch { s.chan ch with demand := d })) :=
    KeepsSleep.after (.of_within (.claimChan ch _)) rfl
  have lit : KeepsSleep s (settleLights (s.setChan ch { s.chan ch with demand := d })) :=
    KeepsSleep.after (.of_within (.settleLights _)) rfl
  exact .ite (.refl s) (.ite off (.ite (.ite ⟨rfl⟩ claimed)
    (.ite (lit.trans (.of_within (.noteFault ch _))) lit)))

theorem KeepsSleep.evaluateRules (s : Part) : KeepsSleep s (evaluateRules s) := by
  have handed : ∀ t, KeepsSleep t (handResults t) := fun t => by
    have demands : KeepsSleep t (t.changedChans.foldl handDemand t) := .foldl (fun u ch => .setDemand ch _ u) _ t
    exact .ite (demands.trans (.ite (.refl _) ⟨rfl⟩)) (.refl t)
  exact .ite (.refl s) ⟨(handed { s with lamps := { s.lamps with results := s.results } }).sleep⟩

/-! ### Fan -/

theorem KeepsSleep.fanStep (s : Part) : KeepsSleep s (fanStep s) := by
  unfold Machine.fanStep
  split
  · exact ⟨rfl⟩
  · exact KeepsSleep.after (.makeClaim ..) rfl

theorem KeepsSleep.stopFan (s : Part) : KeepsSleep s (stopFan s) := .passAfter s ⟨rfl⟩

theorem KeepsSleep.cutFan (target : Nat) (s : Part) : KeepsSleep s (cutFan target s) := .passAfter s ⟨rfl⟩

theorem KeepsSleep.raiseFan (target : Nat) (s : Part) : KeepsSleep s (raiseFan target s) := by
  unfold Machine.raiseFan
  refine .ite ?_ (.passAfter s ⟨rfl⟩)
  split
  · exact KeepsSleep.after (.grantPass _) rfl
  · exact .passAfter s ⟨rfl⟩

theorem KeepsSleep.setTarget (target : Nat) (s : Part) : KeepsSleep s (setTarget target s) := by
  have stepped : ∀ f, KeepsSleep s (Machine.fanStep (s.setFan f)) := fun _ => KeepsSleep.after (.fanStep _) rfl
  unfold Machine.setTarget
  refine .ite (.refl s) ?_
  split
  · exact stepped _
  · exact .ite (.stopFan s) (KeepsSleep.after (.makeClaim ..) rfl)
  · exact .ite (.stopFan s) (.ite (.cutFan _ s) (.raiseFan _ s))
  · exact .ite (.stopFan s) (.ite (.cutFan _ s) (stepped _))
  · exact .ite (.stopFan s) ⟨rfl⟩
  · exact ⟨rfl⟩

theorem KeepsSleep.selectFan (s : Part) : KeepsSleep s (selectFan s) :=
  .ite (.refl s) (.ite ⟨rfl⟩ (.setTarget _ s))

/-! ### Gauges -/

theorem KeepsSleep.startTest (s : Part) (g : Fin 4) : KeepsSleep s (startTest s g) := .of_within (.startTest s g)

theorem parkForIgnition_mgmt (s : Part) (g : Fin 4) : (parkForIgnition s g).mgmt = s.mgmt := by
  unfold parkForIgnition
  dsimp only
  split
  iterate 4
    split <;> rfl
  · rfl
  · rfl

theorem KeepsSleep.resumeGauge (s : Part) (g : Fin 4) : KeepsSleep s (resumeGauge s g) := by
  unfold Machine.resumeGauge
  dsimp only
  split
  · refine .ite ⟨rfl⟩ ?_
    split <;> exact ⟨rfl⟩
  · exact .startTest s g
  all_goals exact .refl s

theorem KeepsSleep.gaugesFollowMode (s : Part) : KeepsSleep s (gaugesFollowMode s) :=
  .ite (.foldl .resumeGauge _ s) (.passAfter s (.foldl (fun t g => .of_mgmt (parkForIgnition_mgmt t g)) _ s))

/-! ### Power manager -/

theorem KeepsSleep.handMode (was : Mode) (s : Part) : KeepsSleep s (handMode was s) := by
  have blocks : ∀ t, KeepsSleep t (handBlocks was t) := fun t => by
    have ruled := (KeepsSleep.evaluateRules t).trans (.selectFan _)
    exact .ite (ruled.trans (.foldl .startTest _ _)) (ruled.trans (.gaugesFollowMode _))
  exact .ite ((KeepsSleep.selectLimit s).trans (blocks _))
    (((blocks s).trans (.syncConds _)).trans (.selectLimit _))

theorem answerRequest_sleep (q : Request) (a : Answer) (s : Part) :
    (answerRequest q a s).mgmt.sleep = s.mgmt.sleep := by
  unfold answerRequest prepareReply handReply queueOwn
  split
  · rfl
  · split <;> rfl

/-- A SLEEP that waits is answered, and waits no more (10: R173). -/
theorem answerSleep_answers {st : Status} {q : Request} {s : Part} (waits : s.mgmt.sleep = some q) :
    (answerSleep st s).answered q (q.plain st) := by
  unfold answerSleep
  rw [waits]
  exact answerRequest_answered ..

theorem answerSleep_sleep (st : Status) (s : Part) : (answerSleep st s).mgmt.sleep = none := by
  unfold answerSleep
  split
  · assumption
  · exact answerRequest_sleep ..

end Sys2Proof.Machine
end

section
/-! The end of an event where no DORMANT entry ends it (09: R158): the power manager's timers after it (09: R157,
R161). -/

namespace Sys2Proof.Machine

section
variable {s : Part}

/-- DORMANT is entered from STANDING, where a deferral waits. -/
theorem finish_stays (h : s.power.deferral = false ∨ s.mode ≠ .standing) :
    finish s = followIdle (followQuiet (syncConds s)) := by
  have awake : testDeferral (syncConds s) = syncConds s := if_neg fun ⟨waits, standing, _⟩ => by
    have power := (FlagsOnly.syncConds s).power
    rw [power] at waits
    exact h.elim (fun no => Bool.noConfusion (no.symm.trans waits))
      fun away => away ((congrArg Power.mode power).symm.trans standing)
  unfold finish
  rw [awake]

theorem staysAwake_of (h : s.power.deferral = false ∨ s.mode ≠ .standing) : s.staysAwake :=
  h.imp_right .inl

/-- The end of an event leaves all of the power manager but its two timers. -/
theorem finish_power (h : s.power.deferral = false ∨ s.mode ≠ .standing) : (finish s).power =
    { s.power with interval := (finish s).power.interval, quiet := (finish s).power.quiet } :=
  (finish_outputs s (staysAwake_of h)).2.2

theorem finish_mode (h : s.power.deferral = false ∨ s.mode ≠ .standing) : (finish s).mode = s.mode :=
  (congrArg Power.mode (finish_power h)).trans rfl

theorem FlagsOnly.bothDown {s t : Part} (h : FlagsOnly s t) : t.bothDown = s.bothDown := by
  unfold Part.bothDown Part.port
  rw [h.ports]

theorem FlagsOnly.mayIdle {s t : Part} (h : FlagsOnly s t) : t.mayIdle = s.mayIdle := by
  obtain ⟨-, -, lamps, fan, -⟩ := h.outputs
  unfold Part.mayIdle Part.mode
  rw [h.outputs.allParked, h.power, lamps, fan]

theorem KeepsSleep.finish (h : s.power.deferral = false ∨ s.mode ≠ .standing) : KeepsSleep s (finish s) := by
  rw [finish_stays h]
  exact ⟨(KeepsSleep.syncConds s).sleep⟩

/-- The quiet timer after an event (R161). -/
theorem finish_quietTimer (h : s.power.deferral = false ∨ s.mode ≠ .standing) : (finish s).power.quiet =
    if s.mode = .dormant ∧ s.bothDown then some (s.power.quiet.getD 60000) else none := by
  have flags := FlagsOnly.syncConds s
  rw [finish_stays h]
  show (if (syncConds s).power.mode = .dormant ∧ (syncConds s).bothDown then
    some ((syncConds s).power.quiet.getD 60000) else none) = _
  rw [flags.bothDown, flags.power]
  rfl

/-- A settling that runs goes on after the event (R156). -/
theorem finish_settling (h : s.power.deferral = false ∨ s.mode ≠ .standing) {n : Nat}
    (settling : s.power.interval = .settling n) : (finish s).power.interval = .settling n := by
  have runs : (followQuiet (syncConds s)).power.interval = .settling n :=
    (congrArg Power.interval (FlagsOnly.syncConds s).power).trans settling
  rw [finish_stays h]
  unfold followIdle
  rw [runs]
  rfl

/-- An interval timer at rest takes up the idle count where its conditions hold (R157). -/
theorem finish_idle (h : s.power.deferral = false ∨ s.mode ≠ .standing) (rest : s.power.interval = .none) :
    (finish s).power.interval = .none ∨ ∃ n, s.mayIdle = true ∧ (finish s).power.interval = .idle n := by
  have flags := FlagsOnly.syncConds s
  have none : (followQuiet (syncConds s)).power.interval = .none := (congrArg Power.interval flags.power).trans rest
  have may : (followQuiet (syncConds s)).mayIdle = s.mayIdle := Eq.trans rfl flags.mayIdle
  rw [finish_stays h]
  unfold followIdle
  rw [none, may]
  cases s.mayIdle
  · exact .inl rfl
  · exact .inr ⟨_, rfl, rfl⟩

end

end Sys2Proof.Machine
end

section
/-! The ignition lines and the changes of mode they bring (09: R149 to R151, R158, R160; obligation O55). -/

namespace Sys2Proof.Machine

/-! ### The lines -/

theorem exec_ignitionLineChange (s : State) (l : IgnLine) (high : Bool) : exec (.ignitionLineChange l high) s =
    .next { s with part := if (s.part.power.line l).raw = high then s.part else { s.part with
      power := s.part.power.setLine l { s.part.power.line l with
        raw := high, timer := if s.part.power.stage = .held then none else some 20 } } } := rfl

theorem settleLine_frame (l : IgnLine) (s : Part) : (settleLine l s).power.stage = s.power.stage ∧
    (settleLine l s).power.deferral = s.power.deferral := by
  cases l <;> exact ⟨rfl, rfl⟩

/-! ### Changes of mode -/

theorem settlingMs_eq (c : Fin 4) : settlingMs c = 20 * 2 ^ c.val := by
  revert c
  decide

section
variable {s : Part}

theorem wakeTo_power (mode : Mode) (s : Part) : (wakeTo mode s).power =
    { s.power with mode := mode, quiet := none, reference := true, interval := s.startSettling } :=
  (Steady.handMode _ _).power

/-- A wake takes both transmitters out of DARK (01: R16). -/
theorem wakeTo_lit (mode : Mode) (s : Part) (p : Port) : ((wakeTo mode s).port p).tx ≠ .dark := by
  have lit : ∀ r : PortRec, r.lightTx.tx ≠ .dark := fun r => by
    unfold PortRec.lightTx
    split
    · exact TxState.noConfusion
    · assumption
  have ports : (wakeTo mode s).ports = ⟨s.ports.front.lightTx, s.ports.rear.lightTx⟩ := (Steady.handMode _ _).ports
  unfold Part.port
  rw [ports]
  cases p
  · exact lit _
  · exact lit _

theorem cancelDeferral_power (s : Part) : (cancelDeferral s).power = { s.power with deferral := false } := by
  unfold cancelDeferral
  split
  · exact (Steady.answerSleep ..).power
  · rename_i none
    rw [← Bool.eq_false_of_not_eq_true none]

/-- A SLEEP that rides on a deferral is answered REFUSED when the deferral is cancelled (10: R173). -/
theorem cancelDeferral_answers {q : Request} (deferral : s.power.deferral = true) (waits : s.mgmt.sleep = some q) :
    (cancelDeferral s).mgmt.sleep = none ∧ (cancelDeferral s).answered q (q.plain .refused) := by
  unfold cancelDeferral
  rw [if_pos deferral]
  exact ⟨answerSleep_sleep .., answerSleep_answers waits⟩

/-! ### A change of the ignition state (R151, R160) -/

theorem followIgnition_running (mode : s.mode = .running) :
    (followIgnition s).power = { s.power with mode := if s.ignition = .off then .standing else .running } := by
  unfold followIgnition
  rw [mode]
  dsimp only
  split
  · exact (Steady.handMode ..).power
  · exact (Steady.handMode ..).power.trans (by rw [← mode]; rfl)

theorem followIgnition_standing (mode : s.mode = .standing) (driven : s.ignition ≠ .off) : followIgnition s =
    handMode .standing ((cancelDeferral s).setPower { (cancelDeferral s).power with mode := .running }) := by
  unfold followIgnition
  rw [mode]
  exact if_neg driven

theorem followIgnition_asleep (mode : s.mode = .dormant ∨ s.mode = .quiet) (driven : s.ignition ≠ .off) :
    followIgnition s = wakeTo .running s := by
  unfold followIgnition
  rcases mode with mode | mode
  · rw [mode]
    exact if_neg driven
  · rw [mode]
    exact if_neg driven

theorem followIgnition_held (mode : s.mode = .held) : followIgnition s = s := by
  unfold followIgnition
  rw [mode]

/-- A change of the ignition state acts on modes, budget and outputs alone. -/
theorem followIgnition_still (s : Part) : Undisturbed s (followIgnition s) := by
  have handed : ∀ was (t : Part), Undisturbed s t → Undisturbed s (handMode was t) := fun was t h =>
    (Reaction.handMode was t).still.trans h
  cases mode : s.mode with
  | running =>
    unfold followIgnition
    rw [mode]
    dsimp only
    split
    · exact handed _ _ rfl
    · exact handed _ _ rfl
  | standing =>
    by_cases off : s.ignition = .off
    · unfold followIgnition
      rw [mode]
      dsimp only
      rw [if_pos off]
      rfl
    · rw [followIgnition_standing mode off]
      exact handed _ _ (Reaction.cancelDeferral s).still
  | dormant | quiet =>
    unfold followIgnition
    rw [mode]
    dsimp only
    split
    · rfl
    · exact (Reaction.wakeTo .running s rfl).still
  | held =>
    rw [followIgnition_held mode]
    rfl

/-! ### The event -/

theorem debounceExpiry_still {l : IgnLine} (runs : (s.power.line l).timer ≠ none) :
    Undisturbed (settleLine l s) (debounceExpiry l s) := by
  unfold debounceExpiry
  rw [if_neg (by simpa using runs)]
  dsimp only
  split
  · rfl
  · split
    · exact finish_still _
    · exact (finish_still _).trans (followIgnition_still _)

theorem debounceExpiry_changed {l : IgnLine} (runs : (s.power.line l).timer ≠ none) (on : s.on = true)
    (change : (settleLine l s).ignition ≠ s.ignition) :
    debounceExpiry l s = finish (followIgnition (settleLine l s)) := by
  unfold debounceExpiry
  rw [if_neg (by simpa using runs), on]
  exact (if_neg Bool.false_ne_true).trans (if_neg change)

/-- RUNNING follows the ignition (R151). -/
theorem finish_running (mode : s.mode = .running) (deferral : s.power.deferral = false) :
    (finish (followIgnition s)).mode = if s.ignition = .off then .standing else .running := by
  have power := followIgnition_running mode
  exact (finish_mode (.inl ((congrArg Power.deferral power).trans deferral))).trans (congrArg Power.mode power)

/-- An ignition state other than OFF takes STANDING to RUNNING and cancels a deferral (R151, R158). -/
theorem finish_standing (mode : s.mode = .standing) (driven : s.ignition ≠ .off) :
    (finish (followIgnition s)).mode = .running ∧ (finish (followIgnition s)).power.deferral = false ∧
    ∀ q, s.power.deferral = true → s.mgmt.sleep = some q → (finish (followIgnition s)).mgmt.sleep = none ∧
      (finish (followIgnition s)).answered q (q.plain .refused) := by
  let w := (cancelDeferral s).setPower { (cancelDeferral s).power with mode := .running }
  have follows : followIgnition s = handMode .standing w := followIgnition_standing mode driven
  have power : (handMode .standing w).power = { (cancelDeferral s).power with mode := .running } :=
    (Steady.handMode .standing w).power
  have running : (handMode .standing w).mode = .running := congrArg Power.mode power
  have awake : (handMode .standing w).power.deferral = false ∨ (handMode .standing w).mode ≠ .standing :=
    .inr (by rw [running]; exact Mode.noConfusion)
  rw [follows]
  refine ⟨(finish_mode awake).trans running, ?_, fun q deferral waits => ?_⟩
  · rw [finish_power awake, power, cancelDeferral_power]
  · obtain ⟨none, answered⟩ := cancelDeferral_answers deferral waits
    have handed : w.answered q (q.plain .refused) := answered
    exact ⟨((KeepsSleep.handMode .standing w).trans (.finish awake)).sleep.trans none,
      handed.mono ((Reaction.handMode .standing w).trans (.finish _))⟩

/-- An ignition state other than OFF wakes DORMANT and QUIET to RUNNING (R160). -/
theorem finish_woken (mode : s.mode = .dormant ∨ s.mode = .quiet) (driven : s.ignition ≠ .off) :
    (finish (followIgnition s)).mode = .running ∧ (finish (followIgnition s)).power.reference = true ∧
    (finish (followIgnition s)).power.quiet = none ∧ (∀ p, ((finish (followIgnition s)).port p).tx ≠ .dark) ∧
    (finish (followIgnition s)).power.interval = s.startSettling := by
  rw [followIgnition_asleep mode driven]
  have power := wakeTo_power .running s
  have running : (wakeTo .running s).mode = .running := congrArg Power.mode power
  have awake : (wakeTo .running s).power.deferral = false ∨ (wakeTo .running s).mode ≠ .standing :=
    .inr (by rw [running]; exact Mode.noConfusion)
  refine ⟨(finish_mode awake).trans running, ?_, ?_, fun p => ?_, ?_⟩
  · rw [finish_power awake, power]
  · rw [finish_quietTimer awake, running]
    exact if_neg fun dormant => Mode.noConfusion dormant.1
  · rw [finish_port]
    exact wakeTo_lit .running s p
  · exact finish_settling awake (congrArg Power.interval power)

theorem finish_held (mode : s.mode = .held) : (finish (followIgnition s)).mode = .held ∧
    (finish (followIgnition s)).arbiter = s.arbiter := by
  have awake : s.power.deferral = false ∨ s.mode ≠ .standing := .inr (by rw [mode]; exact Mode.noConfusion)
  obtain ⟨-, arbiter, -⟩ := (finish_outputs s (staysAwake_of awake)).1
  rw [followIgnition_held mode]
  exact ⟨(finish_mode awake).trans mode, arbiter⟩

end

/-- Settles O55: the line takes its level, and a change of the ignition state is followed mode by mode. -/
theorem ignitionMovesTheMode : Obligations.IgnitionMovesTheMode := by
  intro s l u line settled ign changed
  let v := settleLine l u
  have mode : v.mode = u.mode := settleLine_mode l u
  obtain ⟨-, deferral⟩ := settleLine_frame l u
  refine ⟨fun high => exec_ignitionLineChange s l high, fun runs => ⟨debounceExpiry l u, rfl,
    debounceExpiry_still runs, fun on change => ?_⟩⟩
  have changes : v.ignition ≠ u.ignition := change
  rw [debounceExpiry_changed runs on changes, ← mode, ← deferral]
  refine ⟨finish_running, fun standing driven => finish_standing standing driven, fun asleep driven => ?_,
    fun held => finish_held held⟩
  have settling : v.startSettling = .settling (20 * 2 ^ u.tables.power.settling.val) :=
    congrArg Interval.settling (settlingMs_eq _)
  rw [← settling]
  exact finish_woken asleep driven

end Sys2Proof.Machine
end

section
/-! A supply sample (05: R81; 09: R152, R153; obligation O56). -/

namespace Sys2Proof.Machine

/-! ### The samples -/

section
variable (v : Nat) (s : Part)

theorem pushSample_get (i : Fin 4) : (pushSample v s).power.samples.get i =
    if h : i.val < 3 then s.power.samples.get ⟨i.val + 1, by omega⟩ else v := by
  refine (tab_get _ i).trans ?_
  match i with
  | 0 | 1 | 2 | 3 => rfl

theorem pushSample_supply : (pushSample v s).supply =
    (s.power.samples.get 1 + s.power.samples.get 2 + s.power.samples.get 3 + v + 2) / 4 := by
  have each := pushSample_get v s
  show filtered (pushSample v s).power.samples = _
  unfold filtered
  rw [each 0, each 1, each 2, each 3]
  rfl

end

theorem supply_of_samples {s t : Part} (samples : t.power.samples = s.power.samples) : t.supply = s.supply :=
  congrArg filtered samples

/-! ### A part that has lost its state -/

/-- All is lost of a part but its store and its pins (R153; entry 37). -/
def Part.lostState (u t : Part) : Prop :=
  t.mgmt.store = u.mgmt.store ∧ t.nodeStraps = u.nodeStraps ∧ t.cutStrap = u.cutStrap ∧
  t.relay = Relay.powerOn ∧ (∀ i, t.input i = Input.cleared) ∧ (∀ ch, t.chan ch = Chan.off) ∧
  t.arbiter = Arbiter.empty ∧ t.lamps = Lamps.dark ∧ t.fan = Fan.stopped ∧ (∀ g, (t.gauge g).state = .parked) ∧
  t.mgmt.slot = none ∧ t.mgmt.hold = [] ∧ t.mgmt.commit = none ∧ t.mgmt.sleep = none ∧ t.mgmt.active = 0 ∧
  (∀ q, (t.port q).state = .down ∧ (t.port q).quiet = none ∧ (t.port q).counters = Counters.zero)

/-- The part at power-on with the store and the pins of another. -/
def Part.reset (u : Part) (stage : Stage) (tx : TxState) (acc run start : Bool) (debounce : Option Nat)
    (samples : Vector Nat 4) : Part :=
  .powerOn stage tx acc run start debounce samples u.mgmt.store u.nodeStraps u.cutStrap u.limitFirst

theorem reset_spec {u : Part} {stage : Stage} {tx : TxState} {acc run start : Bool} {debounce : Option Nat}
    {samples : Vector Nat 4} : let t := u.reset stage tx acc run start debounce samples
    u.lostState t ∧ (∀ q, (t.port q).tx = tx) ∧ ∀ l, (t.power.line l).timer = debounce := by
  refine ⟨⟨rfl, rfl, rfl, rfl, fun i => tab_get _ i, fun ch => tab_get _ ch, rfl, rfl, rfl,
    fun g => congrArg Gauge.state (tab_get _ g), rfl, rfl, rfl, rfl, rfl, fun q => ?_⟩, fun q => ?_, fun l => ?_⟩
  · cases q <;> exact ⟨rfl, rfl, rfl⟩
  · cases q <;> rfl
  · cases l <;> rfl

/-! ### The bands (R152; 05: R81) -/

/-- LOW_SUPPLY by the band of 9.00 V to 9.30 V. -/
def lowSupplyBand (supply : Nat) (old : Bool) : Bool :=
  if supply < 900 then true else if 930 ≤ supply then false else old

section
variable {s t : Part}

theorem followLowSupply_flags (s : Part) : FlagsOnly s (followLowSupply s) :=
  .ite (.setCond ..) (.ite (.setCond ..) (.refl s))

theorem followLowSupply_still (s : Part) :
    Undisturbed (s.markActive .lowSupply (lowSupplyBand s.supply (s.active .lowSupply))) (followLowSupply s) := by
  unfold followLowSupply lowSupplyBand
  split
  · exact setCond_still ..
  · split
    · exact setCond_still ..
    · rw [markActive_same _ _ _ rfl]
      rfl

/-- The same record put in place of the power manager's. -/
theorem Undisturbed.setPower (h : Undisturbed s t) (p : Power) : Undisturbed (s.setPower p) (t.setPower p) := by
  have written : ∀ u : Part, (u.setPower p).still = { u.still with power := (s.setPower p).still.power } :=
    fun _ => rfl
  have same : t.still = s.still := h
  show (t.setPower p).still = (s.setPower p).still
  rw [written t, same]
  exact (written s).symm

/-- Flags may be whatever they have become. -/
theorem Undisturbed.anyActive (h : Undisturbed s t) :
    Undisturbed { s with mgmt := { s.mgmt with active := t.mgmt.active } } t :=
  h.trans (congrArg (fun x : Part => { s.still with mgmt := { s.still.mgmt with active := x.mgmt.active } }) h.symm :)

/-- The part with LOW_SUPPLY and the charging state as its supply has them. -/
def Part.supplied (s : Part) : Part :=
  (s.markActive .lowSupply (lowSupplyBand s.supply (s.active .lowSupply))).setPower
    { s.power with charging := chargingBy s.tables.power.threshold s.supply s.power.charging }

theorem followSupply_still (s : Part) : Undisturbed s.supplied (followSupply s) := by
  have low := followLowSupply_still s
  have power : (followLowSupply s).power = s.power := (followLowSupply_flags s).power
  have charged : Undisturbed s.supplied (followCharging (followLowSupply s)) := by
    have written := low.setPower
      { s.power with charging := chargingBy s.tables.power.threshold s.supply s.power.charging }
    unfold followCharging
    rw [power, low.tables, supply_of_samples (congrArg Power.samples power)]
    exact written
  unfold followSupply
  dsimp only
  split
  · exact charged
  · exact (Reaction.selectLimit _).still.trans charged

end

/-! ### The sample -/

section
variable (v : Nat) {s : Part}

theorem supplyStep_held (held : s.power.stage = .held) : supplyStep v s =
    if 550 < (pushSample v s).supply then releaseReset (pushSample v s) else pushSample v s := by
  have stage : (pushSample v s).power.stage = .held := held
  unfold supplyStep
  dsimp only
  rw [stage]

/-- Below 5.00 V a part that is not held in reset falls into it (R153). -/
theorem supplyStep_browns (out : s.power.stage ≠ .held) (low : (pushSample v s).supply < 500) :
    supplyStep v s = brownOut (pushSample v s) := by
  unfold supplyStep
  dsimp only
  split
  · exact absurd ‹_› out
  · exact if_pos low
  · exact if_pos low

theorem supplyStep_released {b : Bool} (released : s.power.stage = .released b)
    (enough : 500 ≤ (pushSample v s).supply) : supplyStep v s = pushSample v s := by
  have stage : (pushSample v s).power.stage = .released b := released
  unfold supplyStep
  dsimp only
  rw [stage]
  exact if_neg (Nat.not_lt.2 enough)

theorem supplyStep_running (running : s.power.stage = .running) (enough : 500 ≤ (pushSample v s).supply) :
    supplyStep v s = finish (followSupply (pushSample v s)) := by
  have stage : (pushSample v s).power.stage = .running := running
  unfold supplyStep
  dsimp only
  rw [stage]
  exact if_neg (Nat.not_lt.2 enough)

theorem followSupply_event (s : Part) : Undisturbed s.supplied (finish (followSupply s)) :=
  (finish_still _).trans (followSupply_still s)

theorem supplyStep_samples (s : Part) : (supplyStep v s).power.samples = (pushSample v s).power.samples := by
  unfold supplyStep
  dsimp only
  split
  · split <;> rfl
  · split <;> rfl
  · split
    · rfl
    · obtain ⟨-, -, -, -, samples, -⟩ := (followSupply_event (pushSample v s)).power
      exact samples

theorem supplyStep_still (running : s.power.stage = .running) (enough : 500 ≤ (pushSample v s).supply) :
    Undisturbed (pushSample v s).supplied (supplyStep v s) := by
  rw [supplyStep_running v running enough]
  exact followSupply_event _

/-- A part left as a sample makes it follows the two bands, and nothing else of it but outputs changes. -/
theorem supplied_follows {t : Part} (still : Undisturbed (pushSample v s).supplied t) :
    t.active .lowSupply = lowSupplyBand (pushSample v s).supply (s.active .lowSupply) ∧
    t.power.charging = chargingBy s.tables.power.threshold (pushSample v s).supply s.power.charging ∧
    Undisturbed { s with power := { s.power with samples := t.power.samples, charging := t.power.charging }
                         mgmt := { s.mgmt with active := t.mgmt.active } } t := by
  obtain ⟨-, -, -, -, samples, charging⟩ := still.power
  refine ⟨(still.active .lowSupply rfl).trans (markActive_active ..), charging, ?_⟩
  rw [samples, charging]
  exact still.anyActive

end

/-- Settles O56, stage by stage of the part. -/
theorem supplySampleActs : Obligations.SupplySampleActs := by
  intro s v u p mean fresh
  have supply : (pushSample v u).supply = mean := pushSample_supply v u
  have samples := supplyStep_samples v u
  refine ⟨supplyStep v u, rfl, fun i => ?_, (supply_of_samples samples).trans supply, fun held low => ?_,
    fun held enough => ?_, fun out low => ?_, fun b released enough => ?_, fun running enough => ?_⟩
  · rw [samples]
    exact pushSample_get v u i
  · rw [samples, supplyStep_held v held, supply, if_neg (Nat.not_lt.2 low)]
    rfl
  · rw [supplyStep_held v held, supply, if_pos enough]
    exact ⟨rfl, reset_spec⟩
  · rw [supplyStep_browns v out (supply ▸ low)]
    exact ⟨rfl, reset_spec⟩
  · rw [samples, supplyStep_released v released (supply ▸ enough)]
    rfl
  · obtain ⟨low, charging, still⟩ := supplied_follows v (supplyStep_still v running (supply ▸ enough))
    rw [supply] at low charging
    refine ⟨fun below => ?_, fun above => ?_, fun above below => ?_, charging, still⟩
    · exact low.trans (if_pos below)
    · exact low.trans ((if_neg (by omega)).trans (if_pos above))
    · exact low.trans ((if_neg (by omega)).trans (if_neg (by omega)))

end Sys2Proof.Machine
end

section
/-! The power-on sequence (09: R153; 10: R176, R179, R180; obligation O57). -/

namespace Sys2Proof.Machine

/-! ### The load stage -/

/-- A pin taken is a matter of the node table (02: R30). -/
theorem takePin_nodes (s : Part) (c : PinCfg) : ∃ ns, takePin s c = s.setNodes ns := by
  unfold takePin
  split
  · exact ⟨s.relay.nodes, rfl⟩
  · split <;> exact ⟨_, rfl⟩

theorem applyPins_nodes (s : Part) : ∃ ns, applyPins s = s.setNodes ns := by
  have pinned : ∀ (cs : List PinCfg) (ms : List NodeEntry),
      ∃ ns, cs.foldl takePin (s.setNodes ms) = s.setNodes ns := by
    intro cs
    induction cs with
    | nil => exact fun ms => ⟨ms, rfl⟩
    | cons c cs ih =>
      intro ms
      obtain ⟨ns, taken⟩ := takePin_nodes (s.setNodes ms) c
      rw [List.foldl_cons, taken]
      exact ih ns
  exact pinned ..

/-- What the load stage makes of the records the blocks keep (R179; 01: R19; 08: R148). -/
structure Part.built (s t : Part) : Prop where
  mgmt : t.mgmt = s.mgmt
  inputs : t.inputs = s.inputs
  arbiter : t.arbiter = s.arbiter
  fan : t.fan = s.fan
  lamps : t.lamps = s.lamps
  gauges : ∀ g, t.gauge g = Gauge.parkedAt (t.gaugeCfg g)
  front : (t.port .front).lock = t.tables.link.lockFront
  rear : (t.port .rear).lock = t.tables.link.lockRear

theorem loadPart_built (s : Part) : (loadStore s).built (loadPart s) := by
  let locked : Part := { loadStore s with ports :=
    ⟨(loadStore s).ports.front.withLock (loadStore s).tables.link.lockFront,
     (loadStore s).ports.rear.withLock (loadStore s).tables.link.lockRear⟩ }
  obtain ⟨ns, pinned⟩ := applyPins_nodes locked
  have loaded : loadPart s = (gaugesFresh (rebuildRecords (locked.setNodes ns))).setPower
      { (gaugesFresh (rebuildRecords (locked.setNodes ns))).power with stage := .released true } := by
    rw [← pinned]
    rfl
  rw [loaded]
  exact ⟨rfl, rfl, rfl, rfl, rfl, fun g => tab_get _ g, rfl, rfl⟩

theorem loadStore_frame (s : Part) : (loadStore s).inputs = s.inputs ∧ (loadStore s).arbiter = s.arbiter ∧
    (loadStore s).fan = s.fan ∧ (loadStore s).lamps = s.lamps := by
  unfold loadStore
  split <;> exact ⟨rfl, rfl, rfl, rfl⟩

theorem loadStore_valid {s : Part} (valid : s.mgmt.store.state = .valid) : (loadStore s).mgmt =
    { s.mgmt with tables := s.mgmt.store.tables, node := s.mgmt.store.node } := by
  unfold loadStore
  rw [valid]

theorem loadStore_invalid {s : Part} (invalid : s.mgmt.store.state ≠ .valid) : (loadStore s).mgmt =
    { s.mgmt with
      tables := defaultTables s.cutStrap, node := 40 + s.nodeStraps.toNat
      store := { s.mgmt.store with state := .invalid }, active := putBit s.mgmt.active Cond.nvFault.num true } := by
  unfold loadStore
  split
  · exact absurd ‹_› invalid
  · rfl
  · rfl

theorem exec_nvLoad {s : State} (due : s.part.power.stage = .released false) :
    exec .nvLoad s = .next { s with part := loadPart s.part } := congrArg s.nextPart (if_pos due)

/-! ### The flags at the start stage -/

/-- The causes of the conditions are none of the flags. -/
theorem levelCauses_flags (s : Part) (m : Mgmt) (tables : m.tables = s.mgmt.tables) :
    levelCauses { s with mgmt := m } = levelCauses s := by
  have suspended : ({ s with mgmt := m } : Part).suspendedAny = s.suspendedAny := by
    unfold Part.suspendedAny Part.tables
    rw [tables]
    rfl
  unfold levelCauses
  rw [suspended]
  rfl

/-- Of the power manager, the causes of the conditions look at two of the lines (09: R150). -/
theorem levelCauses_power (s : Part) (p : Power) (run : p.run = s.power.run) (start : p.start = s.power.start) :
    levelCauses (s.setPower p) = levelCauses s := by
  unfold levelCauses
  rw [setPower_power, run, start]
  rfl

theorem markActive_other (s : Part) {c d : Cond} (b : Bool) (h : d ≠ c) :
    (s.markActive c b).active d = s.active d := by
  show (putBit _ _ _).getLsbD _ = _
  rw [putBit_getLsbD _ _ _ _ d.num_lt, if_neg fun same => h (Cond.num_inj same)]
  rfl

/-- Active flags written one after another, each with its cause. -/
def markAll (xs : List (Cond × Bool)) (s : Part) : Part := xs.foldl (fun t x => t.markActive x.1 x.2) s

theorem markAll_mgmt (xs : List (Cond × Bool)) (s : Part) :
    markAll xs s = { s with mgmt := { s.mgmt with active := (markAll xs s).mgmt.active } } := by
  induction xs generalizing s with
  | nil => rfl
  | cons x xs ih => exact ih (s.markActive x.1 x.2)

theorem markAll_active (xs : List (Cond × Bool)) (s : Part) (once : (xs.map Prod.fst).Nodup) :
    (∀ x ∈ xs, (markAll xs s).active x.1 = x.2) ∧
    ∀ c, (∀ x ∈ xs, x.1 ≠ c) → (markAll xs s).active c = s.active c := by
  induction xs generalizing s with
  | nil => exact ⟨fun x mem => absurd mem List.not_mem_nil, fun _ _ => rfl⟩
  | cons y ys ih =>
    rw [List.map_cons, List.nodup_cons] at once
    obtain ⟨fresh, once⟩ := once
    obtain ⟨marked, others⟩ := ih (s.markActive y.1 y.2) once
    refine ⟨fun x mem => ?_, fun c away => ?_⟩
    · rcases List.mem_cons.1 mem with rfl | mem
      · exact (others x.1 fun z mem same => fresh (List.mem_map.2 ⟨z, mem, same⟩)).trans (markActive_active ..)
      · exact marked x mem
    · exact (others c fun x mem => away x (List.mem_cons_of_mem _ mem)).trans
        (markActive_other s y.2 fun same => away y List.mem_cons_self same.symm)

theorem levelCauses_once (s : Part) : ((levelCauses s).map Prod.fst).Nodup := by
  simp only [levelCauses, List.map_cons, List.map_nil]
  decide

/-- The part with its flags as the start stage leaves them: nothing changed, no notice owed (10: R176, R180). -/
def Part.flagged (s : Part) (active : BitVec 16) : Part :=
  { s with mgmt := { s.mgmt with active := active, changed := 0, owed := false } }

theorem flagged_active (s : Part) (active : BitVec 16) (c : Cond) :
    (s.flagged active).active c = active.getLsbD c.num := rfl

theorem flagged_level (s : Part) (active : BitVec 16) : levelCauses (s.flagged active) = levelCauses s :=
  levelCauses_flags s _ rfl

theorem flagged_frame (s : Part) (active : BitVec 16) :
    let t := s.flagged active
    t.power = s.power ∧ t.inputs = s.inputs ∧ t.relay = s.relay ∧ t.tables = s.tables ∧
    t.mgmt.node = s.mgmt.node ∧ (∀ c, t.changed c = false) ∧ t.mgmt.owed = false :=
  ⟨rfl, rfl, rfl, rfl, rfl, fun _ => BitVec.getLsbD_zero, rfl⟩

/-- The active flags follow their causes (10: R176). -/
theorem startConds_eq (s : Part) : startConds s = s.flagged (markAll (levelCauses s) s).mgmt.active := by
  show ({ markAll (levelCauses s) s with
    mgmt := { (markAll (levelCauses s) s).mgmt with changed := 0, owed := false } } : Part) = _
  rw [markAll_mgmt]
  rfl

theorem startConds_active (s : Part) (c : Cond) : (startConds s).active c = (markAll (levelCauses s) s).active c := by
  rw [startConds_eq, flagged_active, Part.active]

theorem startConds_level (s : Part) : ∀ x ∈ levelCauses (startConds s), (startConds s).active x.1 = x.2 := by
  intro x mem
  rw [startConds_active]
  rw [startConds_eq, flagged_level] at mem
  exact (markAll_active _ s (levelCauses_once s)).1 x mem

theorem startConds_lowSupply (s : Part) : (startConds s).active .lowSupply = s.active .lowSupply := by
  rw [startConds_active]
  refine (markAll_active _ s (levelCauses_once s)).2 _ fun x mem same => ?_
  have followed := levelCauses_followed s x mem
  rw [same] at followed
  cases followed

theorem startConds_frame (s : Part) : (startConds s).power = s.power ∧ (startConds s).inputs = s.inputs ∧
    (startConds s).relay = s.relay ∧ (startConds s).tables = s.tables ∧ (startConds s).mgmt.node = s.mgmt.node ∧
    (∀ c, (startConds s).changed c = false) ∧ (startConds s).mgmt.owed = false := by
  rw [startConds_eq]
  exact flagged_frame ..

/-- The end of an event in a calm part leaves the flags, each at its cause. -/
theorem finish_calm_flags {s : Part} (calm : s.calm) : (finish s).mgmt = s.mgmt ∧
    ∀ x ∈ levelCauses (finish s), (finish s).active x.1 = x.2 := by
  have causes : levelCauses (followIdle (followQuiet s)) = levelCauses s :=
    (levelCauses_power _ _ rfl rfl).trans (levelCauses_power _ _ rfl rfl)
  rw [finish_calm s calm, causes]
  exact ⟨rfl, calm.2⟩

/-! ### The start stage -/

/-- The power manager at the start stage (R153). -/
def Part.startPower (s : Part) : Power :=
  { s.power with
    stage := .running, mode := if s.ignition = .off then .standing else .running
    charging := if s.tables.power.threshold ≤ s.supply then .charging else .discharging
    reference := true, settled := false, interval := s.startSettling }

/-- The part at the start stage before the blocks hear of its mode (R153). -/
def Part.starting (s : Part) : Part := (s.setPower s.startPower).markActive .lowSupply (s.supply < 900)

theorem startPart_power (s : Part) : (startPart s).power = s.startPower := by
  obtain ⟨power, -⟩ := startConds_frame (handMode .held s.starting)
  exact power.trans (Steady.handMode .held s.starting).power

theorem startPart_calm {s : Part} (deferral : s.power.deferral = false) : (startPart s).calm :=
  ⟨(congrArg Power.deferral (startPart_power s)).trans deferral, startConds_level _⟩

theorem startPart_lowSupply (s : Part) : (startPart s).active .lowSupply = decide (s.supply < 900) :=
  calc (startPart s).active .lowSupply
    _ = (handMode .held s.starting).active .lowSupply := startConds_lowSupply _
    _ = s.starting.active .lowSupply := (Reaction.handMode .held s.starting).still.active .lowSupply rfl
    _ = decide (s.supply < 900) := markActive_active ..

/-- What the blocks are handed at the start stage leaves tables, number, inputs and node table as they were loaded. -/
theorem startPart_frame (s : Part) : (startPart s).tables = s.tables ∧ (startPart s).mgmt.node = s.mgmt.node ∧
    (startPart s).inputs = s.inputs ∧ (startPart s).relay.nodes = s.relay.nodes := by
  have still := (Reaction.handMode .held s.starting).still
  obtain ⟨nodes, -⟩ := still.relay
  obtain ⟨-, -, -, -, -, node, -⟩ := still.mgmt
  obtain ⟨-, inputs, relay, tables, node', -⟩ := startConds_frame (handMode .held s.starting)
  exact ⟨tables.trans still.tables, node'.trans node, inputs.trans still.inputs,
    (congrArg Relay.nodes relay).trans nodes⟩

section
variable {s : Part} (deferral : s.power.deferral = false)
include deferral

/-- The power manager when the start stage is over (R153). -/
theorem started_power : ∃ quiet, (finish (startPart s)).power = { s.startPower with quiet := quiet } := by
  have power := startPart_power s
  have stays : (startPart s).power.deferral = false ∨ (startPart s).mode ≠ .standing :=
    .inl (startPart_calm deferral).1
  have settling : (finish (startPart s)).power.interval = s.startSettling :=
    finish_settling stays (congrArg Power.interval power)
  refine ⟨(finish (startPart s)).power.quiet, ?_⟩
  rw [finish_power stays, settling, power]
  rfl

/-- The flags when the start stage is over (10: R176, R180). -/
theorem started_flags : let t := finish (startPart s)
    (t.active .lowSupply = true ↔ s.supply < 900) ∧ (∀ c, t.changed c = false) ∧ t.mgmt.owed = false ∧
    ∀ x ∈ levelCauses t, t.active x.1 = x.2 := by
  obtain ⟨-, -, -, -, -, changed, owed⟩ := startConds_frame (handMode .held s.starting)
  obtain ⟨mgmt, level⟩ := finish_calm_flags (startPart_calm deferral)
  refine ⟨?_, fun c => ?_, (congrArg Mgmt.owed mgmt).trans owed, level⟩
  · rw [(finish_still (startPart s)).active .lowSupply rfl, startPart_lowSupply, decide_eq_true_iff]
  · unfold Part.changed
    rw [mgmt]
    exact changed c

end

theorem exec_powerOnStart {s : State} (loaded : s.part.power.stage = .released true)
    (settled : ∀ l, (s.part.power.line l).timer = none) :
    exec .powerOnStart s = .next { s with part := finish (startPart s.part) } := by
  have lines : s.part.power.linesSettled = true := by
    have acc : s.part.power.acc.timer = none := settled .acc
    have run : s.part.power.run.timer = none := settled .run
    have start : s.part.power.start.timer = none := settled .start
    unfold Power.linesSettled
    rw [acc, run, start]
    rfl
  exact congrArg s.nextPart (if_pos ⟨loaded, lines⟩)

/-- Settles O57: the load stage by the state of the store, the start stage by the flags that stand as their causes. -/
theorem powerOnSequenceStarts : Obligations.PowerOnSequenceStarts := by
  intro s u
  refine ⟨fun due => ⟨loadPart u, exec_nvLoad due, loadPart_power u, ?_⟩, fun loaded lines deferral =>
    ⟨finish (startPart u), exec_powerOnStart loaded lines, ?_⟩⟩
  · have built := loadPart_built u
    obtain ⟨inputs, arbiter, fan, lamps⟩ := loadStore_frame u
    refine ⟨fun valid => ?_, fun invalid => ?_, built.front, built.rear, built.gauges, built.inputs.trans inputs,
      built.arbiter.trans arbiter, built.fan.trans fan, built.lamps.trans lamps⟩
    · have mgmt := built.mgmt.trans (loadStore_valid valid)
      unfold Part.tables
      rw [mgmt]
      exact ⟨rfl, rfl, rfl, rfl⟩
    · have mgmt := built.mgmt.trans (loadStore_invalid invalid)
      unfold Part.tables Part.active
      rw [mgmt]
      exact ⟨rfl, rfl, rfl, markActive_active u .nvFault true⟩
  · obtain ⟨quiet, power⟩ := started_power deferral
    obtain ⟨low, changed, owed, level⟩ := started_flags deferral
    obtain ⟨tables, node, inputs, nodes⟩ := startPart_frame u
    have still := finish_still (startPart u)
    obtain ⟨nodes', -⟩ := still.relay
    obtain ⟨-, -, -, -, -, node', -⟩ := still.mgmt
    have settling : u.startSettling = .settling (20 * 2 ^ u.tables.power.settling.val) :=
      congrArg Interval.settling (settlingMs_eq _)
    unfold Part.mode
    rw [power, ← settling]
    exact ⟨rfl, rfl, rfl, rfl, rfl, rfl, low, changed, owed, level, still.tables.trans tables, node'.trans node,
      still.inputs.trans inputs, nodes'.trans nodes⟩

end Sys2Proof.Machine
end

section
/-! A mode other than RUNNING and STANDING handed to the blocks of an unloaded part leaves the channels as they are
(04: R78; 06: R105; 07: R120; 08: R145). -/

namespace Sys2Proof.Machine

/-! ### The relation -/

/-- No claim waits and nothing is committed. -/
def Part.unloaded (s : Part) : Prop := s.arbiter.claims = [] ∧ s.committed = 0

/-- Channels and lamp-node records stay where the budget is unloaded, and it stays so. -/
structure LeavesDark (s t : Part) : Prop where
  channels : s.unloaded → t.channels = s.channels
  unloaded : s.unloaded → t.unloaded

theorem LeavesDark.refl (s : Part) : LeavesDark s s := ⟨fun _ => rfl, id⟩

theorem LeavesDark.trans {s t u : Part} (h : LeavesDark s t) (k : LeavesDark t u) : LeavesDark s u :=
  ⟨fun free => (k.channels (h.unloaded free)).trans (h.channels free), k.unloaded ∘ h.unloaded⟩

theorem LeavesDark.ite {s a b : Part} {c : Prop} [Decidable c] (ha : LeavesDark s a) (hb : LeavesDark s b) :
    LeavesDark s (if c then a else b) := by
  split
  · exact ha
  · exact hb

theorem LeavesDark.foldl {α : Type} {f : Part → α → Part} (hf : ∀ s x, LeavesDark s (f s x)) (xs : List α)
    (s : Part) : LeavesDark s (xs.foldl f s) := by
  induction xs generalizing s with
  | nil => exact .refl s
  | cons x xs ih => exact (hf s x).trans (ih _)

/-- An update apart from channels and budget. -/
theorem LeavesDark.of_eq {s t : Part} (channels : t.channels = s.channels) (arbiter : t.arbiter = s.arbiter) :
    LeavesDark s t := by
  refine ⟨fun _ => channels, ?_⟩
  unfold Part.unloaded Part.committed
  rw [arbiter]
  exact id

theorem LeavesDark.of_outputs {s t : Part} (h : SameOutputs s t) : LeavesDark s t := by
  obtain ⟨channels, arbiter, -⟩ := h
  exact .of_eq channels arbiter

theorem LeavesDark.syncConds (s : Part) : LeavesDark s (syncConds s) := .of_outputs (FlagsOnly.syncConds s).outputs

/-! ### The budget -/

/-- An unloaded channel has nothing to give back. -/
theorem LeavesDark.vacate {s t : Part} (ch : Fin 25) (channels : t.channels = s.channels)
    (arbiter : t.arbiter = s.arbiter.vacate ch) : LeavesDark s t := by
  refine ⟨fun _ => channels, fun unloaded => ?_⟩
  obtain ⟨unclaimed, uncommitted⟩ := unloaded
  have less : t.committed ≤ s.committed := by
    unfold Part.committed
    rw [arbiter]
    exact vacate_committed_le s.arbiter ch
  refine ⟨?_, Nat.le_zero.1 (uncommitted ▸ less)⟩
  rw [arbiter]
  show s.arbiter.claims.filter _ = []
  rw [unclaimed]
  rfl

/-- A granting pass finds no claim. -/
theorem LeavesDark.grantPass (s : Part) : LeavesDark s (grantPass s) := by
  have nobody : s.unloaded → Machine.grantPass s = s := by
    rintro ⟨unclaimed, -⟩
    unfold Machine.grantPass
    rw [unclaimed]
    rfl
  exact ⟨fun free => by rw [nobody free], fun free => by rw [nobody free]; exact free⟩

theorem LeavesDark.passAfter {s t : Part} (old : Part) (h : LeavesDark s t) : LeavesDark s (passAfter old t) :=
  .ite h (h.trans (.grantPass t))

/-- No limit is below what an unloaded part has committed. -/
theorem LeavesDark.shedSome (n : Nat) (s : Part) : LeavesDark s (shedSome n s) := by
  have nobody : s.unloaded → Machine.shedSome n s = s := by
    rintro ⟨-, uncommitted⟩
    cases n with
    | zero => rfl
    | succ n => exact if_pos (by rw [uncommitted]; exact Nat.zero_le _)
  exact ⟨fun free => by rw [nobody free], fun free => by rw [nobody free]; exact free⟩

theorem LeavesDark.selectLimit (s : Part) : LeavesDark s (selectLimit s) := by
  have limited : ∀ new, LeavesDark s (s.setArbiter { s.arbiter with limit := new }) := fun _ => ⟨fun _ => rfl, id⟩
  exact .ite (.refl s)
    (LeavesDark.trans (.ite ((limited _).trans (.grantPass _)) ((limited _).trans (.shedSome _ _))) (.syncConds _))

/-! ### The blocks -/

section
variable {s : Part}

theorem LeavesDark.evaluateRules (running : s.mode ≠ .running) (standing : s.mode ≠ .standing) :
    LeavesDark s (evaluateRules s) := by
  have kept : ∀ t : Part, t.mode = s.mode → handResults t = t := fun t mode =>
    if_neg fun either => either.elim (fun h => running (mode ▸ h)) fun h => standing (mode ▸ h)
  unfold Machine.evaluateRules
  rw [kept { s with lamps := { s.lamps with results := s.results } } rfl]
  exact .ite (.refl s) (.of_eq rfl rfl)

/-- Toward a target of 0 % the fan asks for nothing (07: R122). -/
theorem fanClaim_zero (s : Part) : s.fanClaim 0 = none := by
  unfold Part.fanClaim sizeClaim nextDuty need
  simp

theorem LeavesDark.fanOff (s : Part) : LeavesDark s (setTarget 0 s) := by
  have stopped : LeavesDark s (stopFan s) := .passAfter s (.vacate fanChan rfl rfl)
  have stepped : LeavesDark s (fanStep (s.setFan { s.fan with target := 0, state := .waiting })) := by
    have paid : (s.setFan { s.fan with target := 0, state := .waiting }).fanClaim 0 = none := fanClaim_zero _
    rw [fanStep_paid paid]
    exact .of_eq rfl rfl
  unfold setTarget
  refine .ite (.refl s) ?_
  split
  · exact stepped
  · exact stopped
  · exact stopped
  · exact stopped
  · exact stopped
  · exact .of_eq rfl rfl

/-- The fan is off outside RUNNING (07: R120). -/
theorem LeavesDark.selectFan (running : s.mode ≠ .running) : LeavesDark s (selectFan s) := by
  have target : s.fanTarget = 0 := if_neg fun ⟨permitted, _⟩ =>
    running (beq_iff_eq.1 (Bool.and_eq_true_iff.1 permitted).1)
  unfold Machine.selectFan
  rw [target]
  exact .ite (.refl s) (.ite (.of_eq rfl rfl) (.fanOff s))

theorem LeavesDark.parkNow (g : Fin 4) (s : Part) : LeavesDark s (parkNow g s) := .vacate (gaugeChan g) rfl rfl

theorem LeavesDark.parkForIgnition (s : Part) (g : Fin 4) : LeavesDark s (parkForIgnition s g) := by
  have written : ∀ (t : Part) r, LeavesDark t (t.setGauge g r) := fun _ _ => .of_eq rfl rfl
  unfold Machine.parkForIgnition
  refine LeavesDark.trans ?_ (written _ _)
  split
  iterate 3
    split
    · exact written ..
    · exact .parkNow g s
  · split
    · exact .refl s
    · exact .parkNow g s
  · exact .parkNow g s
  · exact .refl s

theorem LeavesDark.gaugesFollowMode (running : s.mode ≠ .running) : LeavesDark s (gaugesFollowMode s) := by
  unfold Machine.gaugesFollowMode
  rw [if_neg running]
  exact .passAfter s (.foldl .parkForIgnition _ s)

theorem LeavesDark.handBlocks (was : Mode) (running : s.mode ≠ .running) (standing : s.mode ≠ .standing) :
    LeavesDark s (handBlocks was s) := by
  have ruled : (Machine.evaluateRules s).mode = s.mode := congrArg Power.mode (Steady.evaluateRules s).power
  have fanned : (Machine.selectFan (Machine.evaluateRules s)).mode = s.mode :=
    (congrArg Power.mode (Steady.selectFan _).power).trans ruled
  have parks : Machine.handBlocks was s =
      Machine.gaugesFollowMode (Machine.selectFan (Machine.evaluateRules s)) :=
    if_neg fun both => running both.2
  rw [parks]
  exact ((LeavesDark.evaluateRules running standing).trans (.selectFan (by rw [ruled]; exact running))).trans
    (.gaugesFollowMode (by rw [fanned]; exact running))

theorem LeavesDark.handMode (was : Mode) (running : s.mode ≠ .running) (standing : s.mode ≠ .standing) :
    LeavesDark s (handMode was s) := by
  have limited : (Machine.selectLimit s).mode = s.mode := congrArg Power.mode (Steady.setLimit s.limitFigure s).power
  exact .ite ((LeavesDark.selectLimit s).trans
      (.handBlocks was (by rw [limited]; exact running) (by rw [limited]; exact standing)))
    (((LeavesDark.handBlocks was running standing).trans (.syncConds _)).trans (.selectLimit _))

theorem LeavesDark.answerSleep (st : Status) (s : Part) : LeavesDark s (answerSleep st s) := by
  unfold Machine.answerSleep
  split
  · exact .refl s
  · rename_i q _
    have taken : LeavesDark s { s with mgmt := { s.mgmt with sleep := none } } := .of_eq rfl rfl
    exact taken.trans (.ite (.of_eq rfl rfl) (.of_outputs (FlagsOnly.queueOwn ..).outputs))

end

/-! ### Channels at rest (04: R78) -/

/-- Every channel at its OFF values, every record with its masks clear and its refresh stopped. -/
structure Part.atRest (t : Part) : Prop where
  chan : ∀ ch, t.chan ch = Chan.off
  records : ∀ r ∈ t.channels.lampNodes, r.lit = 0 ∧ r.dim = 0 ∧ r.duty = 100 ∧ r.refresh = none

theorem forceOff_atRest (s : Part) : (forceOff s).atRest := by
  refine ⟨fun ch => tab_get _ ch, fun r mem => ?_⟩
  obtain ⟨r', -, rfl⟩ := List.mem_map.1 mem
  exact ⟨rfl, rfl, rfl, rfl⟩

theorem Part.atRest.of_channels {s t : Part} (h : s.atRest) (channels : t.channels = s.channels) : t.atRest := by
  refine ⟨fun ch => ?_, ?_⟩
  · unfold Part.chan
    rw [channels]
    exact h.chan ch
  · rw [channels]
    exact h.records

end Sys2Proof.Machine
end

section
/-! The timers of the power manager and the modes they lead to (09: R156 to R159, R161; 04: R78; obligation O58). -/

namespace Sys2Proof.Machine

/-! ### The settling interval -/

section
variable {s : Part}

theorem Moves.leaveSettling (s : Part) (g : Fin 4) : Moves (· = g) s (leaveSettling g s) :=
  .ite (.setGauge ..) (.refl _ s)

/-- Where the reference has settled, a SETTLING gauge with a grant enters its first driven state, any other stays (08:
R136). -/
theorem leaveSettling_gauge {g : Fin 4} (settled : s.power.settled = true) : (leaveSettling g s).gauge g =
    if (s.gauge g).state = .settling ∧ 0 < s.grant (gaugeChan g) then (s.gauge g).entered (s.gaugeCfg g)
    else s.gauge g := by
  unfold leaveSettling
  rw [settled]
  by_cases leaves : (s.gauge g).state = .settling ∧ 0 < s.grant (gaugeChan g)
  · rw [if_pos leaves, if_pos ⟨leaves.1, leaves.2, rfl⟩, setGauge_gauge]
  · rw [if_neg leaves, if_neg fun h => leaves ⟨h.1, h.2.1⟩]

theorem settleReference_power (s : Part) :
    (settleReference s).power = { s.power with settled := true, interval := .none } :=
  (Moves.turns .leaveSettling (s.setPower { s.power with settled := true, interval := .none })).power

theorem settleReference_gauge (s : Part) (g : Fin 4) : (settleReference s).gauge g =
    if (s.gauge g).state = .settling ∧ 0 < s.grant (gaugeChan g) then (s.gauge g).entered (s.gaugeCfg g)
    else s.gauge g := by
  obtain ⟨v, before, after⟩ :=
    Moves.turn .leaveSettling (s.setPower { s.power with settled := true, interval := .none }) g
  have settled : v.power.settled = true := by rw [before.power]; rfl
  have own : v.gauge g = s.gauge g := before.own
  have grant : v.grant (gaugeChan g) = s.grant (gaugeChan g) := by
    unfold Part.grant
    rw [before.arbiter]
    rfl
  refine after.own.trans ?_
  rw [leaveSettling_gauge settled, own, grant, before.gaugeCfg]
  rfl

/-! ### The idle interval and DORMANT entry -/

theorem enterDormant_power (s : Part) : (enterDormant s).power = { s.power with
    mode := .dormant, deferral := false, reference := false, settled := false, interval := .none } :=
  (Steady.answerSleep ..).power.trans (Steady.handMode ..).power

theorem enterDormant_ports (s : Part) : (enterDormant s).ports = s.ports :=
  (Steady.answerSleep ..).ports.trans (Steady.handMode ..).ports

/-- DORMANT entry is a matter of modes and outputs alone (R159). -/
theorem enterDormant_still (s : Part) : Undisturbed s (enterDormant s) :=
  (Reaction.answerSleep ..).still.trans (Reaction.handMode ..).still

theorem enterDormant_sleep (s : Part) : (enterDormant s).mgmt.sleep = none := answerSleep_sleep ..

/-- A SLEEP that has waited for the entry is answered DONE (10: R173). -/
theorem enterDormant_answers {q : Request} (waits : s.mgmt.sleep = some q) :
    (enterDormant s).answered q (q.plain .done) :=
  answerSleep_answers ((KeepsSleep.handMode ..).sleep.trans waits)

theorem enterDormant_atRest (unloaded : s.unloaded) : (enterDormant s).atRest := by
  let off := forceOff (s.setPower { s.power with
    mode := Mode.dormant, deferral := false, reference := false, settled := false, interval := .none })
  have dark : LeavesDark off (enterDormant s) :=
    (LeavesDark.handMode s.mode Mode.noConfusion Mode.noConfusion).trans (.answerSleep ..)
  exact (forceOff_atRest _).of_channels (dark.channels unloaded)

theorem beginDeferral_calm (calm : s.calm) : syncConds (beginDeferral s) = beginDeferral s := by
  refine syncConds_calm _ ?_
  show ∀ x ∈ levelCauses (beginDeferral s), s.active x.1 = x.2
  rw [show levelCauses (beginDeferral s) = levelCauses s from levelCauses_power _ _ rfl rfl]
  exact calm.2

/-- A deferral that begins with every condition of entry holding ends in DORMANT at once (R158). -/
theorem idle_enters (calm : s.calm) (standing : s.mode = .standing) (may : s.mayEnterDormant = true) :
    (finish (beginDeferral s)).mode = .dormant := by
  have enters : testDeferral (beginDeferral s) = enterDormant (beginDeferral s) := if_pos ⟨rfl, standing, may⟩
  have ends : finish (beginDeferral s) = followIdle (followQuiet (enterDormant (beginDeferral s))) := by
    unfold finish
    rw [beginDeferral_calm calm, enters]
  rw [ends]
  exact congrArg Power.mode (enterDormant_power (beginDeferral s))

/-- Otherwise the deferral waits, with no idle count (R157, R158). -/
theorem idle_defers (calm : s.calm) (barred : ¬ (s.mode = .standing ∧ s.mayEnterDormant = true)) :
    SameOutputs s (finish (beginDeferral s)) ∧ (finish (beginDeferral s)).power =
      { s.power with interval := .none, deferral := true, quiet := (finish (beginDeferral s)).power.quiet } := by
  have waits : testDeferral (beginDeferral s) = beginDeferral s := if_neg fun h => barred h.2
  have idle : (followQuiet (beginDeferral s)).mayIdle = false := Bool.and_false _
  have ends : finish (beginDeferral s) = followIdle (followQuiet (beginDeferral s)) := by
    unfold finish
    rw [beginDeferral_calm calm, waits]
  rw [ends]
  refine ⟨⟨rfl, rfl, rfl, rfl, rfl⟩, ?_⟩
  unfold followIdle
  rw [idle]
  rfl

/-! ### QUIET entry -/

theorem enterQuiet_power (s : Part) : (enterQuiet s).power = { s.power with mode := .quiet, quiet := none } :=
  (Steady.handMode ..).power

theorem enterQuiet_port (s : Part) (p : Port) : (enterQuiet s).port p = (s.port p).darkened := by
  have ports : (enterQuiet s).ports = ⟨s.ports.front.darkened, s.ports.rear.darkened⟩ := (Steady.handMode ..).ports
  unfold Part.port
  rw [ports]
  cases p <;> rfl

/-- QUIET entry takes the ports DOWN; the rest is a matter of modes and outputs (R161). -/
theorem enterQuiet_still (s : Part) :
    Undisturbed { s with ports := ⟨s.ports.front.darkened, s.ports.rear.darkened⟩ } (enterQuiet s) := by
  let dark := forceOff { s with ports := ⟨s.ports.front.darkened, s.ports.rear.darkened⟩ }
  have blanked : Undisturbed { s with ports := ⟨s.ports.front.darkened, s.ports.rear.darkened⟩ }
      (dark.setPower { dark.power with mode := .quiet, quiet := none }) := rfl
  exact (Reaction.handMode s.mode _).still.trans blanked

theorem enterQuiet_atRest (unloaded : s.unloaded) : (enterQuiet s).atRest := by
  let dark := forceOff { s with ports := ⟨s.ports.front.darkened, s.ports.rear.darkened⟩ }
  have kept : LeavesDark (dark.setPower { dark.power with mode := .quiet, quiet := none }) (enterQuiet s) :=
    .handMode s.mode Mode.noConfusion Mode.noConfusion
  exact (forceOff_atRest _).of_channels (kept.channels unloaded)

end

end Sys2Proof.Machine
end

section
/-! The commands of the power manager's timers (09: R156 to R159, R161; obligation O58). -/

namespace Sys2Proof.Machine

section
variable {s : State} (on : s.part.on = true)
include on

theorem exec_settlingExpiry {n : Nat} (runs : s.part.power.interval = .settling n) :
    exec .settlingExpiry s = .next { s with part := finish (settleReference s.part) } :=
  congrArg s.nextPart (eventIf_eq _ on (by rw [runs]; rfl))

theorem exec_idleExpiry {n : Nat} (runs : s.part.power.interval = .idle n) :
    exec .idleExpiry s = .next { s with part := finish (beginDeferral s.part) } :=
  congrArg s.nextPart (eventIf_eq _ on (by rw [runs]; rfl))

theorem exec_dormantEntry (deferral : s.part.power.deferral = true) (standing : s.part.mode = .standing)
    (may : s.part.mayEnterDormant = true) :
    exec .dormantEntry s = .next { s with part := finish (enterDormant s.part) } := by
  refine congrArg s.nextPart (eventIf_eq _ on ?_)
  unfold Part.entryDue
  rw [deferral, standing, may]
  rfl

theorem exec_quietEntry (dormant : s.part.mode = .dormant) (runs : s.part.power.quiet ≠ none) :
    exec .quietEntry s = .next { s with part := finish (enterQuiet s.part) } := by
  refine congrArg s.nextPart (eventIf_eq _ on ?_)
  rw [dormant, Option.isSome_iff_ne_none.2 runs]
  rfl

end

section
variable (s : Part)

theorem bothDown_iff : s.bothDown = true ↔ (s.port .front).state = .down ∧ (s.port .rear).state = .down := by
  unfold Part.bothDown
  rw [Bool.and_eq_true, beq_iff_eq, beq_iff_eq]

/-- The part after SETTLING_EXPIRY (R156; 08: R136). -/
theorem settled_spec {s : Part} (deferral : s.power.deferral = false) :
    let t := finish (settleReference s)
    t.power.settled = true ∧ t.mode = s.mode ∧ (∀ n, t.power.interval ≠ .settling n) ∧
    ∀ g, t.gauge g = if (s.gauge g).state = .settling ∧ 0 < s.grant (gaugeChan g) then
      (s.gauge g).entered (s.gaugeCfg g) else s.gauge g := by
  have power := settleReference_power s
  have idle : (settleReference s).power.deferral = false := (congrArg Power.deferral power).trans deferral
  refine ⟨?_, ?_, fun n runs => ?_, fun g => (finish_gauge idle g).trans (settleReference_gauge s g)⟩
  · rw [finish_power (.inl idle), power]
  · exact (finish_mode (.inl idle)).trans ((congrArg Power.mode power).trans rfl)
  · rcases finish_idle (.inl idle) (congrArg Power.interval power) with none | ⟨m, -, count⟩
    · cases none.symm.trans runs
    · cases count.symm.trans runs

/-- The part after DORMANT_ENTRY (R159). -/
theorem dormant_spec :
    let t := finish (enterDormant s)
    t.mode = .dormant ∧ t.power.deferral = false ∧ t.power.settled = false ∧ t.power.reference = false ∧
    t.power.interval = .none ∧ t.mgmt.sleep = none ∧
    (∀ q, s.mgmt.sleep = some q → t.answered q (q.plain .done)) ∧
    t.power.quiet = (if (s.port .front).state = .down ∧ (s.port .rear).state = .down
      then some (s.power.quiet.getD 60000) else none) ∧
    (s.unloaded → t.atRest) ∧ Undisturbed s t := by
  have power := enterDormant_power s
  have dormant : (enterDormant s).mode = .dormant := congrArg Power.mode power
  have stays : (enterDormant s).power.deferral = false ∨ (enterDormant s).mode ≠ .standing :=
    .inl (congrArg Power.deferral power)
  have ended := finish_power stays
  rw [power] at ended
  refine ⟨(finish_mode stays).trans dormant, by rw [ended], by rw [ended], by rw [ended], ?_,
    (KeepsSleep.finish stays).sleep.trans (enterDormant_sleep s), fun q waits =>
    (enterDormant_answers waits).mono (.finish _), ?_, fun unloaded =>
    (enterDormant_atRest unloaded).of_channels (finish_outputs _ (staysAwake_of stays)).1.1,
    (finish_still _).trans (enterDormant_still s)⟩
  · rcases finish_idle stays (congrArg Power.interval power) with none | ⟨n, may, -⟩
    · exact none
    · unfold Part.mayIdle at may
      rw [dormant] at may
      cases may
  · have down : (enterDormant s).bothDown = s.bothDown := by
      unfold Part.bothDown Part.port
      rw [enterDormant_ports]
    rw [finish_quietTimer stays, dormant, down, power]
    simp only [bothDown_iff, true_and]

/-- The part after QUIET_ENTRY (R161). -/
theorem quiet_spec :
    let t := finish (enterQuiet s)
    t.mode = .quiet ∧ t.power.quiet = none ∧ t.power.reference = s.power.reference ∧
    (∀ p, t.port p = (s.port p).darkened) ∧ (s.unloaded → t.atRest) ∧
    Undisturbed { s with ports := ⟨s.ports.front.darkened, s.ports.rear.darkened⟩ } t := by
  have power := enterQuiet_power s
  have quiet : (enterQuiet s).mode = .quiet := congrArg Power.mode power
  have stays : (enterQuiet s).power.deferral = false ∨ (enterQuiet s).mode ≠ .standing :=
    .inr (by rw [quiet]; exact Mode.noConfusion)
  refine ⟨(finish_mode stays).trans quiet, ?_, ?_, fun p => (finish_port ..).trans (enterQuiet_port s p),
    fun unloaded => (enterQuiet_atRest unloaded).of_channels (finish_outputs _ (staysAwake_of stays)).1.1,
    (finish_still _).trans (enterQuiet_still s)⟩
  · rw [finish_quietTimer stays, quiet]
    exact if_neg fun dormant => Mode.noConfusion dormant.1
  · rw [finish_power stays, power]

end

/-- Settles O58, timer by timer. -/
theorem powerTimersMoveTheMode : Obligations.PowerTimersMoveTheMode := by
  intro s on u rests
  have resting : ∀ t : Part, (u.unloaded → t.atRest) → rests t := fun t h unclaimed uncommitted =>
    have rest := h ⟨unclaimed, uncommitted⟩
    ⟨rest.chan, rest.records⟩
  refine ⟨fun n runs deferral => ?_, fun n runs calm => ?_, fun deferral standing may => ?_, fun dormant runs => ?_⟩
  · obtain ⟨settled, mode, interval, gauges⟩ := settled_spec deferral
    refine ⟨finish (settleReference u), exec_settlingExpiry on runs, settled, mode, interval,
      fun g settling granted => ?_, fun g stays => ?_⟩
    · rw [gauges, if_pos ⟨settling, granted⟩]
      rfl
    · exact (gauges g).trans (if_neg stays)
  · refine ⟨finish (beginDeferral u), exec_idleExpiry on runs,
      fun ⟨standing, may⟩ => idle_enters calm standing may, fun barred => ?_⟩
    obtain ⟨outputs, power⟩ := idle_defers calm barred
    exact ⟨(congrArg Power.mode power).trans rfl, congrArg Power.deferral power,
      congrArg Power.interval power, outputs⟩
  · obtain ⟨mode, idle, settled, reference, interval, sleep, answered, quiet, rest, still⟩ := dormant_spec u
    exact ⟨finish (enterDormant u), exec_dormantEntry on deferral standing may, mode, idle, settled, reference,
      interval, sleep, answered, quiet, resting _ rest, still⟩
  · obtain ⟨mode, quiet, reference, ports, rest, still⟩ := quiet_spec u
    obtain ⟨nodes, -⟩ := still.relay
    refine ⟨finish (enterQuiet u), exec_quietEntry on dormant runs, mode, quiet, reference, fun p => ?_, nodes,
      fun p => ⟨still.rxQ p, still.relayQ p⟩, still.inputs, still.tables, resting _ rest⟩
    rw [ports]
    exact ⟨rfl, rfl, rfl, rfl, rfl, rfl, rfl, rfl, rfl, rfl⟩

end Sys2Proof.Machine
end
